-- ==== Sys2Proof/Word.lean ====
section
/-! DEFINITION. The word types of the AB-2416: only names for bit vectors of the widths the layouts of
spec/05_the_trunk_link.md give (R99 to R105). Everything computed from them stands in `Machine/`. -/

namespace Sys2Proof

/-- A byte of a frame, a payload or a management argument. -/
abbrev Byte := BitVec 8

/-- A 16-bit value: a tag, a statistic, a parameter, an event sequence number. -/
abbrev Half := BitVec 16

/-- A node time in milliseconds (00_scope.md, Node time): 32 bits, wrapping. -/
abbrev Time := BitVec 32

/-- A station number 0 to 255, compared by number and masked by bits (R10). -/
abbrev Station := BitVec 8

/-- A link sequence number 0 to 7 (R67). -/
abbrev LinkSeq := BitVec 3

/-- A traffic class 0 to 3, 0 the most urgent. -/
abbrev TrafficClass := BitVec 2

/-- A traffic channel 0 to 63. -/
abbrev Channel := BitVec 6

end Sys2Proof
end

