-- ==== Sys2Proof/Syntax.lean ====
section
/-! DEFINITION. The commands of the AB-2416: one constructor per row of spec/opcode_table.json. The table gives
no row a bit pattern; an operand is what the event carries in from outside (a port, a symbol's value, a byte).
The management commands carry none here: their argument bytes stand in the request in execution (R102, R150). -/

namespace Sys2Proof

/-- The two trunk ports. -/
inductive TrunkPort where
  | a
  | b
  deriving DecidableEq, Repr

/-- The reason of a NAK symbol (R91). -/
inductive NakReason where
  | check
  | busy
  deriving DecidableEq, Repr

/-- One command: one event of the node, taken whole. -/
inductive Instr where
  /-- POWER_ON_RESET (R42): the RESET input. -/
  | powerOnReset
  /-- SOF_RECEIVED (R46). -/
  | sofReceived (p : TrunkPort)
  /-- DATA_BYTE_RECEIVED (R50). -/
  | dataByteReceived (p : TrunkPort) (byte : Byte)
  /-- EOF_RECEIVED (R54). -/
  | eofReceived (p : TrunkPort)
  /-- CODE_ERROR_RECEIVED (R50). -/
  | codeErrorReceived (p : TrunkPort)
  /-- ACK_RECEIVED (R71): ACK(seq). -/
  | ackReceived (p : TrunkPort) (seq : LinkSeq)
  /-- NAK_RECEIVED (R72): NAK(seq, reason). -/
  | nakReceived (p : TrunkPort) (seq : LinkSeq) (reason : NakReason)
  /-- HELLO_RECEIVED (R58). -/
  | helloReceived (p : TrunkPort)
  /-- IDLE_RECEIVED (R45). -/
  | idleReceived (p : TrunkPort)
  /-- SILENCE_TIMEOUT (R96): 1 ms without a valid symbol. -/
  | silenceTimeout (p : TrunkPort)
  /-- ANSWER_SENT (R59): the port's next symbol slot takes the oldest pending answer. -/
  | answerSent (p : TrunkPort)
  /-- LOOKUP (R6). -/
  | lookup
  /-- BANK_SWAP (R3). -/
  | bankSwap
  /-- COMMIT_COMPLETE (R141). -/
  | commitComplete
  /-- METER_TICK (R107): node time advances by 1 ms. -/
  | meterTick
  /-- TX_SELECT (R68). -/
  | txSelect (p : TrunkPort)
  /-- COPY_EOF_SENT (R70). -/
  | copyEofSent (p : TrunkPort)
  /-- ACK_WAIT_EXPIRY (R72). -/
  | ackWaitExpiry (p : TrunkPort)
  /-- RETRY_WAIT_EXPIRY (R75). -/
  | retryWaitExpiry (p : TrunkPort)
  /-- ENUM_HANDLING (R121). -/
  | enumHandling
  /-- SESSION_TIMER_EXPIRY (R134). -/
  | sessionTimerExpiry
  /-- SYNC_COPY_STEP (R140). -/
  | syncCopyStep
  /-- REQUEST_START (R148). -/
  | requestStart
  /-- INFO (R153). -/
  | info
  /-- READ_STEER (R139). -/
  | readSteer
  /-- WRITE_STEER (R137). -/
  | writeSteer
  /-- READ_CHMAP (R139). -/
  | readChmap
  /-- WRITE_CHMAP (R138). -/
  | writeChmap
  /-- OPEN_EDIT (R132). -/
  | openEdit
  /-- CLOSE_EDIT (R135). -/
  | closeEdit
  /-- SYNC (R140). -/
  | sync
  /-- COMMIT (R141). -/
  | commit
  /-- EDIT_STATUS (R143). -/
  | editStatus
  /-- READ_METER (R112). -/
  | readMeter
  /-- WRITE_METER (R111). -/
  | writeMeter
  /-- READ_COUNTERS (R115), without clear. -/
  | readCounters
  /-- READ_COUNTERS with clear flag 1 (R116). -/
  | readCountersClear
  /-- READ_PARAM (R155). -/
  | readParam
  /-- WRITE_PARAM (R156) of a parameter with no immediate effect of its own. -/
  | writeParam
  /-- WRITE_PARAM of PORT_ENABLE_A or PORT_ENABLE_B (R97). -/
  | portEnableWrite
  /-- WRITE_PARAM of ATTENTION_MASK (R174). -/
  | attentionMaskWrite
  /-- RELEASE_PORT with disposition RETRY (R81). -/
  | releasePortRetry
  /-- RELEASE_PORT with disposition DROP (R82). -/
  | releasePortDrop
  /-- RELEASE_PORT with disposition FLUSH (R83). -/
  | releasePortFlush
  /-- READ_EVENTS (R171). -/
  | readEvents
  /-- RESET_NODE (R162). -/
  | resetNode
  /-- RESPONSE_HANDOVER (R160). -/
  | responseHandover
  /-- RESET_LIMIT_EXPIRY (R164). -/
  | resetLimitExpiry
  /-- LOCAL_INGRESS_BYTE (R177): a byte the local device offers on the inbound channel, with its last line. -/
  | localIngressByte (byte : Byte) (last : Bool)
  /-- LOCAL_ADMISSION_RETRY (R178). -/
  | localAdmissionRetry
  /-- LOCAL_EGRESS_SELECT (R181). -/
  | localEgressSelect
  /-- LOCAL_EGRESS_BYTE (R176): the local device takes the byte offered on the outbound channel. -/
  | localEgressByte
  deriving DecidableEq, Repr

end Sys2Proof
end

