-- ==== Sys2Proof/Config.lean ====
section
/-! DEFINITION. What the spec fixes as plain constants of the part, and the one free value of the model. -/

namespace Sys2Proof.Config

/-- Pages of the frame store (R26). -/
def pageCount : Nat := 1024

/-- Bytes of one page (R26). -/
def pageSize : Nat := 64

/-- Frame records (R26). -/
def recordCount : Nat := 256

/-- RESERVE (R37): free pages every source but I leaves. -/
def reserve : Nat := 34

/-- Free pages at which a LOW watermark is ARMED again (R41). -/
def rearm : Nat := 51

/-- Largest payload Length (R48, R99). -/
def maxLength : Nat := 1024

/-- What a byte of a page that nothing has written reads as. DESIGN CHOICE, unsafe (log 1): the spec calls the
contents undefined and lets no frame read them. -/
def unwritten : Byte := 0

/-- The free value: the spec leaves open which of two orders is taken inside one event (R94, R91 with R45, R129; log 3), and
whether a byte is on the outbound lines when a transfer is cut (R184; log 9). Applied to `State.choices`, which each use
advances, so that each use is a choice of its own. -/
opaque pick : Nat → Nat

/-- One open choice as a Bool: `true` for the first of the two cases named where it is used. -/
def firstOrder (n : Nat) : Bool := pick n % 2 == 0

end Sys2Proof.Config
end

