-- ==== Sys2Proof/Machine/State.lean ====
section
/-! DEFINITION. The state of the AB-2416 as plain data: every register, list, queue, counter, mode and pin of
spec/00 to 11, block by block, and its value after power-on reset. What is done with it stands in the other files
of `Machine/`. -/

namespace Sys2Proof.Machine

/-- The three ports: the trunk ports A and B and the local port L. Also the three sources of the lookup arbiter. -/
inductive Port where
  | a
  | b
  | l
  deriving DecidableEq, Repr

/-- The four ingress sources the store counts (R30). -/
inductive Source where
  | a
  | b
  | l
  | i
  deriving DecidableEq, Repr

/-- A sparse table: (key, value) pairs with keys strictly rising and no value equal to the default. -/
abbrev Sparse (α : Type) := List (Nat × α)

/-- The pages' bytes: address 64 * page + offset. -/
abbrev Memory := List Host.Cell

/-! ### The frame store (R26 to R43) -/

/-- Where a frame that is not free stands (R28). -/
inductive RecordState where
  | filling
  | waiting
  | queued
  deriving DecidableEq, Repr

/-- A frame record (R27). -/
structure FrameRecord where
  state : RecordState
  source : Source
  size : Nat
  pages : List Nat
  arrival : Time
  refs : Nat
  deriving DecidableEq, Repr

/-- The fields of a record that was never handed out. DESIGN CHOICE (log 2): no block reads them (R27). -/
def FrameRecord.blank : FrameRecord :=
  { state := .waiting, source := .a, size := 0, pages := [], arrival := 0, refs := 0 }

/-- Held pages per ingress source (R40). -/
structure Held where
  a : Nat
  b : Nat
  l : Nat
  i : Nat
  deriving DecidableEq, Repr

/-- The low-store watermark (R41). -/
inductive Watermark where
  | armed
  | low
  deriving DecidableEq, Repr

/-- The frame store. -/
structure Store where
  mem : Memory
  recs : Sparse FrameRecord
  freePages : List Nat
  freeRecs : List Nat
  held : Held
  watermark : Watermark
  deriving DecidableEq, Repr

/-! ### Egress queues (R63) -/

/-- The four queues of one port, one per class, each oldest first. -/
structure QueueSet where
  c0 : List Nat
  c1 : List Nat
  c2 : List Nat
  c3 : List Nat
  deriving DecidableEq, Repr

/-- A queue entry of a port: its class and its record. -/
structure Entry where
  cls : TrafficClass
  frame : Nat
  deriving DecidableEq, Repr

/-! ### The receivers (R44) -/

/-- An answer made and not yet sent (R59). -/
inductive Answer where
  | ack (seq : LinkSeq)
  | nak (seq : LinkSeq) (reason : NakReason)
  deriving DecidableEq, Repr

/-- The frame in progress (R44). `check` is the frame check over the bytes taken, already inverted, so it is 0 over
no bytes; `checkBytes` are the frame check bytes held for comparison (R50). -/
structure RxFrame where
  header : List Byte
  seq : LinkSeq
  length : Nat
  frame : Option Nat
  refused : Bool
  after : Nat
  damaged : Bool
  check : BitVec 32
  checkBytes : List Byte
  deriving DecidableEq, Repr

/-- The reception state with its frame in progress, which exists in every state but WAIT_SOF (R44). -/
inductive Reception where
  | waitSof
  | header (f : RxFrame)
  | payload (f : RxFrame)
  | check (f : RxFrame)
  deriving DecidableEq, Repr

/-- The receiver of a trunk port. -/
structure Receiver where
  reception : Reception
  lastSeq : Option LinkSeq
  answers : List Answer
  deriving DecidableEq, Repr

/-! ### The transmitters (R66) -/

/-- The transmitter states (R66). -/
inductive TxState where
  | idle
  | sending
  | awaitingAck
  | retryWait
  | held
  deriving DecidableEq, Repr

/-- The transmitter of a trunk port; `timer` is the running timer's duration in microseconds. -/
structure Transmitter where
  state : TxState
  txSeq : LinkSeq
  attempts : Nat
  inFlight : Option Entry
  sent : Bool
  acked : Bool
  timer : Option Nat
  deriving DecidableEq, Repr

/-! ### Trunk ports -/

/-- The link monitor of a trunk port (R94). `silence` says whether the 1 ms silence timer runs. -/
structure Link where
  up : Bool
  run : Nat
  silence : Bool
  deriving DecidableEq, Repr

/-- The thirteen statistics of a trunk port, in the order of R105. -/
structure TrunkStats where
  framesStored : Half
  duplicates : Half
  headerErrors : Half
  checkFailures : Half
  busyRefusals : Half
  sourceInvalid : Half
  enumMisdirected : Half
  framesSent : Half
  retransmissions : Half
  strayAcks : Half
  retryExhaustions : Half
  residenceDiscards : Half
  queueFullSkips : Half
  deriving DecidableEq, Repr

/-- A symbol on the trunk line (R91). -/
inductive Symbol where
  | data (b : Byte)
  | sof
  | eof
  | idle
  | hello
  | ack (seq : LinkSeq)
  | nak (seq : LinkSeq) (reason : NakReason)
  deriving DecidableEq, Repr

/-- One trunk port. `lineOut` is the model's record of what the symbol output last sent (log 8). -/
structure Trunk where
  rx : Receiver
  tx : Transmitter
  link : Link
  queues : QueueSet
  stats : TrunkStats
  lineOut : List Symbol
  deriving DecidableEq, Repr

/-! ### The local port (R176 to R185) -/

/-- Local ingress with the frame coming in. `header` holds the bytes taken; `waitRoom` the prepared header and the
announced releases not yet acted on (log 10); `payload` the record, the payload bytes taken and the Length. -/
inductive Ingress where
  | idle
  | header (taken : List Byte)
  | waitRoom (prepared : List Byte) (announced : Nat)
  | payload (frame : Nat) (taken : Nat) (length : Nat)
  | discard
  deriving DecidableEq, Repr

/-- Local egress with the transfer in progress (entry, bytes taken by the device), or the byte marked last and abort
that ABORTING holds on the lines (R184). -/
inductive Egress where
  | idle
  | transfer (e : Entry) (taken : Nat)
  | aborting (marked : Byte)
  deriving DecidableEq, Repr

/-- A byte on the outbound channel with its last and abort lines (R176). -/
structure OutByte where
  data : Byte
  last : Bool
  abort : Bool
  deriving DecidableEq, Repr

/-- The five statistics of the local port (R185). -/
structure LocalStats where
  framesIn : Half
  framesOut : Half
  localRefusals : Half
  residenceDiscards : Half
  queueFullSkips : Half
  deriving DecidableEq, Repr

/-- The local port. `lastOut` is the model's record of the byte the device last took (log 8). -/
structure LocalPort where
  ingress : Ingress
  egress : Egress
  queues : QueueSet
  stats : LocalStats
  lastOut : Option OutByte
  deriving DecidableEq, Repr

/-! ### The steering unit (R1 to R5) -/

/-- Where a frame must have come from (R1, R11). -/
inductive Arrival where
  | any
  | a
  | b
  | upstream
  | downstream
  | localPort
  deriving DecidableEq, Repr

/-- The Mark condition (R1). -/
inductive MarkCond where
  | dontCare
  | clear
  | set
  deriving DecidableEq, Repr

/-- A subset of DATA, MREQ, MRSP, NOTICE (R1). -/
structure Kinds where
  data : Bool
  mreq : Bool
  mrsp : Bool
  notice : Bool
  deriving DecidableEq, Repr

/-- A delivery set: a subset of FORWARD, TURN, LOCAL, MGMT (R1). -/
structure Delivery where
  forward : Bool
  turn : Bool
  toLocal : Bool
  mgmt : Bool
  deriving DecidableEq, Repr

/-- A Steering Table entry (R1); `byChannel` is Mode = BY-CHANNEL. -/
structure SteerEntry where
  valid : Bool
  priority : BitVec 4
  arrival : Arrival
  kinds : Kinds
  destValue : Byte
  destMask : Byte
  srcValue : Byte
  srcMask : Byte
  chanValue : Channel
  chanMask : Channel
  tagValue : Half
  tagMask : Half
  mark : MarkCond
  byChannel : Bool
  delivery : Delivery
  classOverride : Option TrafficClass
  newTag : Option Half
  newChannel : Option Channel
  meter : Option (BitVec 5)
  counter : Option (BitVec 6)
  deriving DecidableEq, Repr

/-- The empty delivery set. -/
def Delivery.empty : Delivery := { forward := false, turn := false, toLocal := false, mgmt := false }

/-- A Steering Table entry after power-on or full reset (R1). -/
def SteerEntry.blank : SteerEntry :=
  { valid := false, priority := 0, arrival := .any
    kinds := { data := false, mreq := false, mrsp := false, notice := false }
    destValue := 0, destMask := 0, srcValue := 0, srcMask := 0, chanValue := 0, chanMask := 0
    tagValue := 0, tagMask := 0, mark := .dontCare, byChannel := false, delivery := .empty
    classOverride := none, newTag := none, newChannel := none, meter := none, counter := none }

/-- A Channel Map entry (R2). -/
structure MapEntry where
  defer : Bool
  delivery : Delivery
  classOverride : Option TrafficClass
  deriving DecidableEq, Repr

/-- A Channel Map entry after power-on or full reset (R2). -/
def MapEntry.blank : MapEntry := { defer := true, delivery := .empty, classOverride := none }

/-- One bank: a Steering Table of 256 entries and a Channel Map of 64 (R130). -/
structure Bank where
  table : Sparse SteerEntry
  map : Sparse MapEntry
  deriving DecidableEq, Repr

/-- The two banks' names (R130). -/
inductive BankName where
  | bank0
  | bank1
  deriving DecidableEq, Repr

/-- The steering unit. -/
structure Steering where
  bank0 : Bank
  bank1 : Bank
  selector : BankName
  generation : Half
  backlogA : List Nat
  backlogB : List Nat
  backlogL : List Nat
  lastServed : Port
  deriving DecidableEq, Repr

/-! ### Meters and counters (R106, R113) -/

/-- The exceed action of a meter (R106). -/
inductive ExceedAction where
  | drop
  | demote
  | mark
  deriving DecidableEq, Repr

/-- A meter (R106). -/
structure Meter where
  enabled : Bool
  rate : Nat
  burst : Nat
  level : Nat
  action : ExceedAction
  exceed : BitVec 32
  deriving DecidableEq, Repr

/-- A meter after power-on or full reset (R106). -/
def Meter.blank : Meter := { enabled := false, rate := 0, burst := 0, level := 0, action := .drop, exceed := 0 }

/-- An entry counter (R113). -/
structure EntryCounter where
  frames : BitVec 32
  bytes : BitVec 48
  deriving DecidableEq, Repr

/-- An entry counter after power-on or full reset. -/
def EntryCounter.blank : EntryCounter := { frames := 0, bytes := 0 }

/-! ### Numbering (R118) -/

/-- Numbering state, own station and orientation, which change together (R118): none of the last two while
UNNUMBERED, and both while NUMBERED. `up` is the trunk port that is Upstream. -/
inductive Numbering where
  | unnumbered
  | numbered (own : Station) (up : TrunkPort)
  deriving DecidableEq, Repr

/-! ### The edit session (R131) -/

/-- Session states (R131). -/
inductive SessionState where
  | closed
  | opened
  | syncing
  deriving DecidableEq, Repr

/-- The edit session controller; `timer` is the running timer's duration in seconds; `swapTaken` says that a
requested swap has been taken and COMMIT has not completed yet (log 11). -/
structure Session where
  state : SessionState
  owner : Option Station
  timer : Option Nat
  cursor : Nat
  swapRequested : Bool
  swapTaken : Bool
  deriving DecidableEq, Repr

/-! ### The management engine (R147 to R167) -/

/-- A request in M: the MREQ's record and its requester (R147). -/
structure Request where
  frame : Nat
  requester : Station
  deriving DecidableEq, Repr

/-- Command results (R102). -/
inductive CmdResult where
  | ok
  | skipped
  | badIndex
  | badValue
  | noSession
  | locked
  | busy
  | notHeld
  | notLast
  | tooLong
  deriving DecidableEq, Repr

/-- A parsed command of a request: its code and its argument bytes (R102). -/
structure Cmd where
  code : Byte
  args : List Byte
  deriving DecidableEq, Repr

/-- A command entry of a response (R102). -/
structure CmdEntry where
  code : Byte
  result : CmdResult
  data : List Byte
  deriving DecidableEq, Repr

/-- The scope of a RESET_NODE (R162). -/
inductive ResetScope where
  | traffic
  | full
  deriving DecidableEq, Repr

/-- The request in execution (R148 to R151): what stage 3 still has to do and has answered, and the reset recorded by
a RESET_NODE answered OK (R162). -/
structure Execution where
  requester : Station
  id : Half
  malformed : Bool
  count : Nat
  todo : List Cmd
  done : List CmdEntry
  reset : Option ResetScope
  deriving DecidableEq, Repr

/-- The pending reset (R163): its scope and the watched response's egress entry. The 100 ms limit timer runs as long
as the reset is pending. -/
structure PendingReset where
  scope : ResetScope
  watched : Option (Port × Nat)
  deriving DecidableEq, Repr

/-- The executor (R148). -/
inductive Executor where
  | idle
  | executing (e : Execution)
  | resetPending (r : PendingReset)
  deriving DecidableEq, Repr

/-- A response cache entry (R158). -/
structure CacheEntry where
  requester : Station
  id : Half
  frame : Nat
  deriving DecidableEq, Repr

/-- The six management statistics (R167). -/
structure MgmtStats where
  requestsExecuted : Half
  malformed : Half
  requestsRefused : Half
  replays : Half
  replaysSuppressed : Half
  responsesDropped : Half
  deriving DecidableEq, Repr

/-- The management engine; the cache is kept in order of last use, least recent first. -/
structure Mgmt where
  queue : List Request
  executor : Executor
  cache : List CacheEntry
  stats : MgmtStats
  deriving DecidableEq, Repr

/-- Retry policies (R76). -/
inductive RetryPolicy where
  | again
  | drop
  | hold
  deriving DecidableEq, Repr

/-- LINK_DOWN_POLICY (R86). -/
inductive LinkPolicy where
  | keep
  | flush
  deriving DecidableEq, Repr

/-- The parameter set (R156), in the units of its table. -/
structure Params where
  retryLimitA : Nat
  retryLimitB : Nat
  retryPolicyA : RetryPolicy
  retryPolicyB : RetryPolicy
  ackWait : Nat
  retryStep : Nat
  busyWait : Nat
  residenceLimit : Nat
  queueDepthA : Nat
  queueDepthB : Nat
  queueDepthL : Nat
  quotaA : Nat
  quotaB : Nat
  quotaL : Nat
  quotaI : Nat
  linkDownPolicy : LinkPolicy
  portEnableA : Bool
  portEnableB : Bool
  editTimeout : Nat
  monitorStation : Option Station
  attentionMask : Half
  deriving DecidableEq, Repr

/-! ### Events (R168) -/

/-- Event kinds (R169). -/
inductive EventKind where
  | resetDone
  | linkUp
  | linkDown
  | retryExhausted
  | portHeld
  | portReleased
  | numberTaken
  | lineEnd
  | sessionExpired
  | sessionCommitted
  | responseDropped
  | localRefused
  | storeLow
  deriving DecidableEq, Repr

/-- An event record (R168). -/
structure EventRecord where
  seq : Half
  kind : EventKind
  port : Option Port
  time : Time
  detail : Option Half
  deriving DecidableEq, Repr

/-- The event queue and the ATTENTION output (chapter 10). -/
structure EventQueue where
  records : List EventRecord
  nextSeq : Half
  lost : Half
  noticeOutstanding : Bool
  attention : Bool
  deriving DecidableEq, Repr

/-- The state of the node. `choices` numbers the uses of the free value `Config.pick` (log 3); `pending` is the queue of
commands that wait, first in, first out. -/
structure State where
  nodeTime : Time
  store : Store
  trunkA : Trunk
  trunkB : Trunk
  loc : LocalPort
  steer : Steering
  meters : Sparse Meter
  counters : Sparse EntryCounter
  numbering : Numbering
  enums : List Nat
  session : Session
  mgmt : Mgmt
  params : Params
  events : EventQueue
  choices : Nat
  pending : List Instr
  deriving DecidableEq, Repr

/-- Why the machine stops with a fault. There is no reason: the spec gives the node no state in which it stops. -/
inductive Fault where
  deriving DecidableEq, Repr

/-- Why a command has no meaning. -/
inductive Refusal where
  /-- Raised by an arm of `exec` whose command has no meaning in the model yet. Safe: nothing is claimed of it. No
  arm does. -/
  | notModelled (mnemonic : String)
  deriving DecidableEq, Repr

/-- What a command answers. -/
abbrev Outcome := Host.Outcome State Fault Refusal

/-! ### Reset values -/

/-- Four empty queues. -/
def QueueSet.empty : QueueSet := { c0 := [], c1 := [], c2 := [], c3 := [] }

/-- Trunk statistics after power-on or full reset (R62, R90). -/
def TrunkStats.zero : TrunkStats :=
  { framesStored := 0, duplicates := 0, headerErrors := 0, checkFailures := 0, busyRefusals := 0, sourceInvalid := 0
    enumMisdirected := 0, framesSent := 0, retransmissions := 0, strayAcks := 0, retryExhaustions := 0
    residenceDiscards := 0, queueFullSkips := 0 }

/-- A transmitter after power-on or full reset (R66). -/
def Transmitter.initial : Transmitter :=
  { state := .idle, txSeq := 0, attempts := 0, inFlight := none, sent := false, acked := false, timer := none }

/-- A trunk port after power-on or full reset (R44, R66, R94). -/
def Trunk.initial : Trunk :=
  { rx := { reception := .waitSof, lastSeq := none, answers := [] }
    tx := .initial
    link := { up := false, run := 0, silence := true }
    queues := .empty
    stats := .zero
    lineOut := [] }

/-- Local statistics after power-on or full reset (R185). -/
def LocalStats.zero : LocalStats :=
  { framesIn := 0, framesOut := 0, localRefusals := 0, residenceDiscards := 0, queueFullSkips := 0 }

/-- Management statistics after power-on or full reset (R167). -/
def MgmtStats.zero : MgmtStats :=
  { requestsExecuted := 0, malformed := 0, requestsRefused := 0, replays := 0, replaysSuppressed := 0
    responsesDropped := 0 }

/-- The reset values of the 21 parameters (R156). -/
def Params.initial : Params :=
  { retryLimitA := 8, retryLimitB := 8, retryPolicyA := .drop, retryPolicyB := .drop, ackWait := 500, retryStep := 100
    busyWait := 200, residenceLimit := 500, queueDepthA := 64, queueDepthB := 64, queueDepthL := 64, quotaA := 320
    quotaB := 320, quotaL := 256, quotaI := 128, linkDownPolicy := .keep, portEnableA := true, portEnableB := true
    editTimeout := 30, monitorStation := none, attentionMask := 0 }

/-- The event queue right after a power-on reset: RESET_DONE with cause POWER as number 0 at node time 0 (R175). -/
def EventQueue.initial : EventQueue :=
  { records := [{ seq := 0, kind := .resetDone, port := none, time := 0, detail := some 1 }]
    nextSeq := 1, lost := 0, noticeOutstanding := false, attention := false }

/-- The node right after power-on reset (R1, R2, R25, R42, R44, R66, R88, R94, R106, R117, R128, R146, R147, R156, R158,
R175 and chapter 11's state table). -/
def State.reset : State :=
  { nodeTime := 0
    store :=
      { mem := [], recs := [], freePages := List.range Config.pageCount, freeRecs := List.range Config.recordCount
        held := { a := 0, b := 0, l := 0, i := 0 }, watermark := .armed }
    trunkA := .initial
    trunkB := .initial
    loc := { ingress := .idle, egress := .idle, queues := .empty, stats := .zero, lastOut := none }
    steer :=
      { bank0 := { table := [], map := [] }, bank1 := { table := [], map := [] }, selector := .bank0, generation := 0
        backlogA := [], backlogB := [], backlogL := [], lastServed := .l }
    meters := []
    counters := []
    numbering := .unnumbered
    enums := []
    session :=
      { state := .closed, owner := none, timer := none, cursor := 0, swapRequested := false, swapTaken := false }
    mgmt := { queue := [], executor := .idle, cache := [], stats := .zero }
    params := .initial
    events := .initial
    choices := 0
    pending := [] }

end Sys2Proof.Machine
end

