-- ==== Sys2Proof/Machine/Flags.lean ====
section
/-! DEFINITION. The computed checks and counts: saturating counts (R114), the header check and the frame check
(R100), the residence of a frame (R69). -/

namespace Sys2Proof.Machine

/-- A count raised by 1 that stops at its maximum (R114: no counter wraps). -/
def satInc {w : Nat} (x : BitVec w) : BitVec w :=
  if x.toNat + 1 < 2 ^ w then x + 1 else x

/-- A count raised by `n` that stops at its maximum (R113). -/
def satAdd {w : Nat} (x : BitVec w) (n : Nat) : BitVec w :=
  if x.toNat + n < 2 ^ w then BitVec.ofNat w (x.toNat + n) else BitVec.allOnes w

/-- One bit step of a left-shifting CRC register with generator `poly`. -/
def crcBit {w : Nat} (poly : BitVec w) (r : BitVec w) : BitVec w :=
  if r.msb then (r <<< 1) ^^^ poly else r <<< 1

/-- Eight bit steps. -/
def crcEight {w : Nat} (poly : BitVec w) (r : BitVec w) : BitVec w :=
  crcBit poly (crcBit poly (crcBit poly (crcBit poly (crcBit poly (crcBit poly (crcBit poly (crcBit poly r)))))))

/-- The header check (R100): x^8 + x^2 + x + 1, initial value FFh, most significant bit first, no final inversion. -/
def headerCheck (bytes : List Byte) : Byte :=
  bytes.foldl (fun r b => crcEight 0x07#8 (r ^^^ b)) 0xFF#8

/-- The 32-bit CRC register after one more byte (R100), generator 04C11DB7h, most significant bit first. -/
def crc32Register (r : BitVec 32) (b : Byte) : BitVec 32 :=
  crcEight 0x04C11DB7#32 (r ^^^ (b.setWidth 32 <<< 24))

/-- The running frame check after one more byte. A running check is kept already inverted, so that over no bytes
(register FFFFFFFFh) it is 0 (R46, R100). -/
def frameCheckNext (c : BitVec 32) (b : Byte) : BitVec 32 :=
  ~~~(crc32Register (~~~c) b)

/-- The frame check over a whole header and payload (R100). -/
def frameCheck (bytes : List Byte) : BitVec 32 :=
  bytes.foldl frameCheckNext 0

/-- The residence check (R69): passed when the limit is 0, or when node time minus arrival time, modulo 2^32, does not
exceed the limit. -/
def residencePasses (limit : Nat) (now arrival : Time) : Bool :=
  limit == 0 || decide ((now - arrival).toNat ≤ limit)

end Sys2Proof.Machine
end

