-- ==== Sys2Proof/Machine/Operands.lean ====
section
/-! DEFINITION. The byte images of R99 to R105: frame headers, payloads, event records, requests and responses,
Steering Table and Channel Map entries, meter and counter records; and the codes of the enumerated fields. -/

namespace Sys2Proof.Machine

/-! ### Byte order: high byte first (5.3) -/

/-- The `n` bytes of `x`, high byte first. -/
def beBytes : (n : Nat) → Nat → List Byte
  | 0, _ => []
  | n + 1, x => BitVec.ofNat 8 (x / 256 ^ n) :: beBytes n x

/-- A 16-bit value as two bytes. -/
def halfBytes (x : Half) : List Byte :=
  [x.extractLsb' 8 8, x.extractLsb' 0 8]

/-- Two bytes as a 16-bit value. -/
def half (hi lo : Byte) : Half := hi ++ lo

/-- Byte `i` of a list, 0 where it is missing. -/
def byteAt (bytes : List Byte) (i : Nat) : Byte := bytes.getD i 0

/-- Bytes `i` and `i + 1` as a 16-bit value. -/
def halfAt (bytes : List Byte) (i : Nat) : Half := half (byteAt bytes i) (byteAt bytes (i + 1))

/-- A Bool as one bit. -/
def bit (b : Bool) : BitVec 1 := BitVec.ofBool b

/-! ### Frame headers (R99) -/

/-- Frame kinds (R99). -/
inductive FrameKind where
  | data
  | mreq
  | mrsp
  | enum
  | enumEnd
  | notice
  deriving DecidableEq, Repr

/-- The code of a frame kind. -/
def kindCode : FrameKind → BitVec 4
  | .data => 1
  | .mreq => 2
  | .mrsp => 3
  | .enum => 4
  | .enumEnd => 5
  | .notice => 6

/-- The frame kind of a code; the codes 0h and 7h to Fh name none. -/
def kindOf (c : BitVec 4) : Option FrameKind :=
  match c.toNat with
  | 1 => some .data
  | 2 => some .mreq
  | 3 => some .mrsp
  | 4 => some .enum
  | 5 => some .enumEnd
  | 6 => some .notice
  | _ => none

/-- The fields of a frame header; `zeros` are the must-be-zero bits (byte 6 bits 7 to 3, then byte 8). -/
structure Header where
  kind : BitVec 4
  mark : Bool
  seq : LinkSeq
  cls : TrafficClass
  channel : Channel
  dest : Station
  source : Station
  tag : Half
  length : BitVec 11
  zeros : BitVec 13
  deriving DecidableEq, Repr

/-- The header in the first bytes of a frame (R99). Byte 9, the header check, is read apart. -/
def parseHeader (b : List Byte) : Header :=
  { kind := (byteAt b 0).extractLsb' 4 4
    mark := (byteAt b 0).getLsbD 3
    seq := (byteAt b 0).extractLsb' 0 3
    cls := (byteAt b 1).extractLsb' 6 2
    channel := (byteAt b 1).extractLsb' 0 6
    dest := byteAt b 2
    source := byteAt b 3
    tag := halfAt b 4
    length := (byteAt b 6).extractLsb' 0 3 ++ byteAt b 7
    zeros := (byteAt b 6).extractLsb' 3 5 ++ byteAt b 8 }

/-- Byte 0 of a header (R99). -/
def headerByte0 (h : Header) : Byte := h.kind ++ bit h.mark ++ h.seq

/-- Byte 1 of a header (R99). -/
def headerByte1 (h : Header) : Byte := h.cls ++ h.channel

/-- Header bytes 0 to 8 (R99). -/
def headerFields (h : Header) : List Byte :=
  [headerByte0 h, headerByte1 h, h.dest, h.source, h.tag.extractLsb' 8 8, h.tag.extractLsb' 0 8,
    h.zeros.extractLsb' 8 5 ++ h.length.extractLsb' 8 3, h.length.extractLsb' 0 8, h.zeros.extractLsb' 0 8]

/-- Nine header bytes with their header check behind them (R100). -/
def sealHeader (fields : List Byte) : List Byte := fields ++ [headerCheck fields]

/-- The ten bytes of a header (R99, R100). -/
def encodeHeader (h : Header) : List Byte := sealHeader (headerFields h)

/-- The header errors that do not concern the header check (R48, R177 case 1): a Kind code not listed, a must-be-zero
bit set, a Length above 1,024. -/
def fieldsBad (h : Header) : Bool :=
  (kindOf h.kind).isNone || h.zeros != 0 || decide (Config.maxLength < h.length.toNat)

/-- The header errors of a trunk frame (R48). -/
def headerBad (bytes : List Byte) : Bool :=
  headerCheck (bytes.take 9) != byteAt bytes 9 || fieldsBad (parseHeader bytes)

/-- The header of a frame the node originates (R120, R152, R172): Mark 0, Class 0. Its Seq is set at each
transmission; the stored image carries 0 (log 12). -/
def ownHeader (kind : FrameKind) (dest source : Station) (channel : Channel) (tag : Half) (length : Nat) : Header :=
  { kind := kindCode kind, mark := false, seq := 0, cls := 0, channel := channel, dest := dest, source := source
    tag := tag, length := BitVec.ofNat 11 length, zeros := 0 }

/-- Pages a frame of payload Length `len` needs (R26). -/
def pagesNeeded (len : Nat) : Nat := (10 + len + (Config.pageSize - 1)) / Config.pageSize

/-- A stored frame as it is sent with sequence number `seq`: byte 0's Seq set, the header check computed over the header
as sent, then the payload (R70, R181). -/
def sentImage (stored : List Byte) (seq : LinkSeq) : List Byte :=
  sealHeader (((byteAt stored 0).extractLsb' 3 5 ++ seq) :: (stored.drop 1).take 8) ++ stored.drop 10

/-- The symbols of one copy (R70, R92): SOF, the frame as sent, its frame check high byte first, EOF. -/
def copySymbols (stored : List Byte) (seq : LinkSeq) : List Symbol :=
  let image := sentImage stored seq
  [.sof] ++ image.map .data ++ (beBytes 4 (frameCheck image).toNat).map .data ++ [.eof]

/-! ### Numbering payloads and event records (R101) -/

/-- The payload of an ENUM (R101). -/
def enumPayload (next : Station) (force : Bool) (run : Half) : List Byte :=
  [next, (0 : BitVec 7) ++ bit force] ++ halfBytes run

/-- The status of an ENUM_END (R119). -/
inductive EndStatus where
  | lineEnd
  | full
  deriving DecidableEq, Repr

/-- The code of an ENUM_END status (R101). -/
def EndStatus.code : EndStatus → Byte
  | .lineEnd => 1
  | .full => 2

/-- The payload of an ENUM_END (R101). -/
def enumEndPayload (last : Station) (status : EndStatus) (run : Half) : List Byte :=
  [last, status.code] ++ halfBytes run

/-- The code of an event kind (R101). -/
def eventCode : EventKind → Nat
  | .resetDone => 1
  | .linkUp => 2
  | .linkDown => 3
  | .retryExhausted => 4
  | .portHeld => 5
  | .portReleased => 6
  | .numberTaken => 7
  | .lineEnd => 8
  | .sessionExpired => 9
  | .sessionCommitted => 10
  | .responseDropped => 11
  | .localRefused => 12
  | .storeLow => 13

/-- The code of an optional port in an event record (R101). -/
def portCode : Option Port → BitVec 2
  | none => 0
  | some .a => 1
  | some .b => 2
  | some .l => 3

/-- The ten bytes of an event record (R101). -/
def eventBytes (e : EventRecord) : List Byte :=
  halfBytes e.seq ++ [BitVec.ofNat 8 (eventCode e.kind), bit e.detail.isSome ++ (0 : BitVec 5) ++ portCode e.port] ++
    beBytes 4 e.time.toNat ++ halfBytes (e.detail.getD 0)

/-- Whether an ATTENTION_MASK selects an event kind: bit n for the kind of code n (R101). -/
def selects (mask : Half) (k : EventKind) : Bool := mask.getLsbD (eventCode k)

/-! ### Requests and responses (R102, R103) -/

/-- The code of a command result (R102). -/
def resultCode : CmdResult → Byte
  | .ok => 0x00
  | .skipped => 0x01
  | .badIndex => 0x02
  | .badValue => 0x03
  | .noSession => 0x04
  | .locked => 0x05
  | .busy => 0x06
  | .notHeld => 0x07
  | .notLast => 0x08
  | .tooLong => 0x09

/-- The fixed argument length of each command code; none for a code that names no command (R103). -/
def argLength (code : Byte) : Option Nat :=
  match code.toNat with
  | 0x01 => some 0
  | 0x02 => some 3
  | 0x03 => some 21
  | 0x04 => some 3
  | 0x05 => some 2
  | 0x06 => some 0
  | 0x07 => some 0
  | 0x08 => some 0
  | 0x09 => some 0
  | 0x0A => some 0
  | 0x0B => some 2
  | 0x0C => some 6
  | 0x0D => some 4
  | 0x0E => some 1
  | 0x0F => some 3
  | 0x10 => some 2
  | 0x11 => some 1
  | 0x12 => some 1
  | _ => none

/-- The next `n` commands of a request payload (R102); none where one runs past the end or a code is unknown (R149). -/
def parseCmds : (n : Nat) → List Byte → Option (List Cmd)
  | 0, _ => some []
  | n + 1, code :: len :: rest =>
    if (argLength code).isNone || decide (rest.length < len.toNat) then none
    else (parseCmds n (rest.drop len.toNat)).map ({ code := code, args := rest.take len.toNat } :: ·)
  | _ + 1, _ => none

/-- The commands of an MREQ payload; none where the request is malformed (R149). -/
def parseRequest (payload : List Byte) : Option (List Cmd) :=
  if payload.length < 3 then none
  else if (byteAt payload 2).toNat = 0 || decide (16 < (byteAt payload 2).toNat) then none
  else parseCmds (byteAt payload 2).toNat (payload.drop 3)

/-- The request id: payload bytes 0 and 1, a missing byte taken as 0 (R149). -/
def requestId (payload : List Byte) : Half := halfAt payload 0

/-- The bytes of one command entry (R102). -/
def entryBytes (e : CmdEntry) : List Byte :=
  [e.code, resultCode e.result] ++ beBytes 2 e.data.length ++ e.data

/-- The payload of a response (R102, R152). -/
def responsePayload (id : Half) (malformed : Bool) (entries : List CmdEntry) : List Byte :=
  halfBytes id ++ [if malformed then 2 else 1, BitVec.ofNat 8 entries.length] ++ entries.flatMap entryBytes

/-! ### Table entries (R104) -/

/-- A delivery set in four bits (R104). -/
def deliveryBits (d : Delivery) : BitVec 4 := bit d.mgmt ++ bit d.toLocal ++ bit d.turn ++ bit d.forward

/-- The delivery set of four bits (R104). -/
def deliveryOf (x : BitVec 4) : Delivery :=
  { forward := x.getLsbD 0, turn := x.getLsbD 1, toLocal := x.getLsbD 2, mgmt := x.getLsbD 3 }

/-- A set of kinds in four bits (R104). -/
def kindsBits (k : Kinds) : BitVec 4 := bit k.notice ++ bit k.mrsp ++ bit k.mreq ++ bit k.data

/-- The set of kinds of four bits (R104). -/
def kindsOf (x : BitVec 4) : Kinds :=
  { data := x.getLsbD 0, mreq := x.getLsbD 1, mrsp := x.getLsbD 2, notice := x.getLsbD 3 }

/-- The code of an Arrival (R104). -/
def arrivalCode : Arrival → BitVec 3
  | .any => 0
  | .a => 1
  | .b => 2
  | .upstream => 3
  | .downstream => 4
  | .localPort => 5

/-- The Arrival of a code; 6 and 7 name none (R104). -/
def arrivalOf (c : BitVec 3) : Option Arrival :=
  match c.toNat with
  | 0 => some .any
  | 1 => some .a
  | 2 => some .b
  | 3 => some .upstream
  | 4 => some .downstream
  | 5 => some .localPort
  | _ => none

/-- The code of a Mark condition (R104). -/
def markCode : MarkCond → BitVec 2
  | .dontCare => 0
  | .clear => 1
  | .set => 2

/-- The Mark condition of a code; 3 names none (R104). -/
def markOf (c : BitVec 2) : Option MarkCond :=
  match c.toNat with
  | 0 => some .dontCare
  | 1 => some .clear
  | 2 => some .set
  | _ => none

/-- The 20 bytes of a Steering Table entry (R104); an absent field reads as 0. -/
def encodeEntry (e : SteerEntry) : List Byte :=
  [bit e.valid ++ markCode e.mark ++ bit e.byChannel ++ e.priority,
    (0 : BitVec 1) ++ arrivalCode e.arrival ++ kindsBits e.kinds,
    e.destValue, e.destMask, e.srcValue, e.srcMask,
    (0 : BitVec 2) ++ e.chanValue, (0 : BitVec 2) ++ e.chanMask] ++
  halfBytes e.tagValue ++ halfBytes e.tagMask ++
  [(0 : BitVec 4) ++ deliveryBits e.delivery,
    (0 : BitVec 3) ++ bit e.counter.isSome ++ bit e.meter.isSome ++ bit e.newChannel.isSome ++ bit e.newTag.isSome ++
      bit e.classOverride.isSome,
    (0 : BitVec 6) ++ e.classOverride.getD 0] ++
  halfBytes (e.newTag.getD 0) ++
  [(0 : BitVec 2) ++ e.newChannel.getD 0, (0 : BitVec 3) ++ e.meter.getD 0, (0 : BitVec 2) ++ e.counter.getD 0]

/-- An optional field of `w` bits in a byte: absent where its presence bit is clear, and then not read (R104). -/
def optField (present : Bool) (w : Nat) (b : Byte) : Option (BitVec w) :=
  if present then some (b.setWidth w) else none

/-- Whether a byte has a 1 above its low `w` bits. -/
def above (w : Nat) (b : Byte) : Bool := decide (2 ^ w ≤ b.toNat)

/-- The Steering Table entry of 20 bytes; none where the encoding is not valid (R104). -/
def decodeEntry (b : List Byte) : Option SteerEntry :=
  let p := byteAt b 13
  match markOf ((byteAt b 0).extractLsb' 5 2), arrivalOf ((byteAt b 1).extractLsb' 4 3) with
  | some mark, some arrival =>
    if (byteAt b 1).getLsbD 7 || above 6 (byteAt b 6) || above 6 (byteAt b 7) || above 4 (byteAt b 12) || above 5 p ||
        (p.getLsbD 0 && above 2 (byteAt b 14)) || (p.getLsbD 2 && above 6 (byteAt b 17)) ||
        (p.getLsbD 3 && above 5 (byteAt b 18)) || (p.getLsbD 4 && above 6 (byteAt b 19)) then none
    else some
      { valid := (byteAt b 0).getLsbD 7
        priority := (byteAt b 0).extractLsb' 0 4
        arrival := arrival
        kinds := kindsOf ((byteAt b 1).extractLsb' 0 4)
        destValue := byteAt b 2, destMask := byteAt b 3, srcValue := byteAt b 4, srcMask := byteAt b 5
        chanValue := (byteAt b 6).extractLsb' 0 6, chanMask := (byteAt b 7).extractLsb' 0 6
        tagValue := halfAt b 8, tagMask := halfAt b 10
        mark := mark
        byChannel := (byteAt b 0).getLsbD 4
        delivery := deliveryOf ((byteAt b 12).extractLsb' 0 4)
        classOverride := optField (p.getLsbD 0) 2 (byteAt b 14)
        newTag := if p.getLsbD 1 then some (halfAt b 15) else none
        newChannel := optField (p.getLsbD 2) 6 (byteAt b 17)
        meter := optField (p.getLsbD 3) 5 (byteAt b 18)
        counter := optField (p.getLsbD 4) 6 (byteAt b 19) }
  | _, _ => none

/-- The byte of a Channel Map entry (R104); an absent class override reads as 0. -/
def encodeMapEntry (m : MapEntry) : Byte :=
  bit m.defer ++ bit m.classOverride.isSome ++ m.classOverride.getD 0 ++ deliveryBits m.delivery

/-- The Channel Map entry of a byte: every byte value is valid (R104, R138). -/
def decodeMapEntry (b : Byte) : MapEntry :=
  { defer := b.getLsbD 7
    delivery := deliveryOf (b.extractLsb' 0 4)
    classOverride := if b.getLsbD 6 then some (b.extractLsb' 4 2) else none }

/-! ### Meter and counter records (R105) -/

/-- The code of an exceed action (R105). -/
def actionCode : ExceedAction → BitVec 2
  | .drop => 0
  | .demote => 1
  | .mark => 2

/-- The exceed action of a code; 3 names none (R105). -/
def actionOf (c : BitVec 2) : Option ExceedAction :=
  match c.toNat with
  | 0 => some .drop
  | 1 => some .demote
  | 2 => some .mark
  | _ => none

/-- A written control byte: its enabled mark and exceed action; none where it is not valid (R105, R111). -/
def controlOf (b : Byte) : Option (Bool × ExceedAction) :=
  if b.extractLsb' 2 5 != 0 then none else (actionOf (b.extractLsb' 0 2)).map (b.getLsbD 7, ·)

/-- The 11 bytes of a meter record (R105). -/
def meterBytes (m : Meter) : List Byte :=
  (bit m.enabled ++ (0 : BitVec 5) ++ actionCode m.action) ::
    (beBytes 2 m.rate ++ beBytes 2 m.burst ++ beBytes 2 m.level ++ beBytes 4 m.exceed.toNat)

/-- The 10 bytes of an entry counter record (R105). -/
def counterBytes (c : EntryCounter) : List Byte :=
  beBytes 4 c.frames.toNat ++ beBytes 6 c.bytes.toNat

/-! ### Codes of enumerated fields (R103) -/

/-- The code of an orientation, none while UNNUMBERED (R103). -/
def orientationCode : Numbering → Byte
  | .unnumbered => 0
  | .numbered _ .a => 1
  | .numbered _ .b => 2

/-- The code of a session state (R103). -/
def sessionCode : SessionState → Byte
  | .closed => 0
  | .opened => 1
  | .syncing => 2

/-- A trunk port from its code, A 1 or B 2 (R80, R103). -/
def trunkPortOf (b : Byte) : Option TrunkPort :=
  match b.toNat with
  | 1 => some .a
  | 2 => some .b
  | _ => none

/-- The dispositions of RELEASE_PORT (R80). -/
inductive Disposition where
  | retry
  | drop
  | flush
  deriving DecidableEq, Repr

/-- The code of a disposition (R103). -/
def Disposition.code : Disposition → Nat
  | .retry => 1
  | .drop => 2
  | .flush => 3

/-- A reset scope from its code (R103). -/
def scopeOf (b : Byte) : Option ResetScope :=
  match b.toNat with
  | 1 => some .traffic
  | 2 => some .full
  | _ => none

/-- The value of a retry policy (R103). -/
def policyCode : RetryPolicy → Nat
  | .again => 1
  | .drop => 2
  | .hold => 3

/-- A retry policy from its value (R103). -/
def policyOf (v : Nat) : RetryPolicy :=
  match v with
  | 1 => .again
  | 3 => .hold
  | _ => .drop

/-- The value of a 16-bit parameter by its number; none outside 1 to 21 (R155, R156). -/
def paramValue (q : Params) (n : Nat) : Option Half :=
  match n with
  | 1 => some (BitVec.ofNat 16 q.retryLimitA)
  | 2 => some (BitVec.ofNat 16 q.retryLimitB)
  | 3 => some (BitVec.ofNat 16 (policyCode q.retryPolicyA))
  | 4 => some (BitVec.ofNat 16 (policyCode q.retryPolicyB))
  | 5 => some (BitVec.ofNat 16 q.ackWait)
  | 6 => some (BitVec.ofNat 16 q.retryStep)
  | 7 => some (BitVec.ofNat 16 q.busyWait)
  | 8 => some (BitVec.ofNat 16 q.residenceLimit)
  | 9 => some (BitVec.ofNat 16 q.queueDepthA)
  | 10 => some (BitVec.ofNat 16 q.queueDepthB)
  | 11 => some (BitVec.ofNat 16 q.queueDepthL)
  | 12 => some (BitVec.ofNat 16 q.quotaA)
  | 13 => some (BitVec.ofNat 16 q.quotaB)
  | 14 => some (BitVec.ofNat 16 q.quotaL)
  | 15 => some (BitVec.ofNat 16 q.quotaI)
  | 16 => some (if q.linkDownPolicy = .flush then 1 else 0)
  | 17 => some (if q.portEnableA then 1 else 0)
  | 18 => some (if q.portEnableB then 1 else 0)
  | 19 => some (BitVec.ofNat 16 q.editTimeout)
  | 20 => some ((q.monitorStation.getD 255).setWidth 16)
  | 21 => some q.attentionMask
  | _ => none

/-- Whether a value may be written to a parameter: in its range, one of its codes, a whole number of its steps (R156). -/
def paramValid (n v : Nat) : Bool :=
  match n with
  | 1 | 2 => decide (1 ≤ v ∧ v ≤ 15)
  | 3 | 4 => decide (1 ≤ v ∧ v ≤ 3)
  | 5 => decide (50 ≤ v ∧ v ≤ 12750 ∧ v % 50 = 0)
  | 6 => decide (v ≤ 2550 ∧ v % 10 = 0)
  | 7 => decide (10 ≤ v ∧ v ≤ 2550 ∧ v % 10 = 0)
  | 8 => decide (v ≤ 60000)
  | 9 | 10 | 11 => decide (1 ≤ v ∧ v ≤ 255)
  | 12 | 13 | 14 | 15 => decide (v ≤ 1024)
  | 16 | 17 | 18 => decide (v ≤ 1)
  | 19 => decide (1 ≤ v ∧ v ≤ 255)
  | 20 => decide (v ≤ 255)
  | 21 => decide (v % 2 = 0 ∧ v < 2 ^ 14)
  | _ => false

/-- The parameter set with one parameter written (R156). -/
def setParam (q : Params) (n v : Nat) : Params :=
  match n with
  | 1 => { q with retryLimitA := v }
  | 2 => { q with retryLimitB := v }
  | 3 => { q with retryPolicyA := policyOf v }
  | 4 => { q with retryPolicyB := policyOf v }
  | 5 => { q with ackWait := v }
  | 6 => { q with retryStep := v }
  | 7 => { q with busyWait := v }
  | 8 => { q with residenceLimit := v }
  | 9 => { q with queueDepthA := v }
  | 10 => { q with queueDepthB := v }
  | 11 => { q with queueDepthL := v }
  | 12 => { q with quotaA := v }
  | 13 => { q with quotaB := v }
  | 14 => { q with quotaL := v }
  | 15 => { q with quotaI := v }
  | 16 => { q with linkDownPolicy := if v = 1 then .flush else .keep }
  | 17 => { q with portEnableA := v == 1 }
  | 18 => { q with portEnableB := v == 1 }
  | 19 => { q with editTimeout := v }
  | 20 => { q with monitorStation := if v = 255 then none else some (BitVec.ofNat 8 v) }
  | 21 => { q with attentionMask := BitVec.ofNat 16 v }
  | _ => q

end Sys2Proof.Machine
end

