-- ==== Sys2Proof/Machine/Ops.lean ====
section
/-! DEFINITION. The named operations every command is written over: sparse tables and memory, the state's parts by port,
the frame store (admission, filling, release), the event queue and its notices, placement and removal of queue
entries, references. -/

namespace Sys2Proof.Machine

/-! ### Sparse tables and memory -/

/-- The value at a key; `d` where the key is not listed. -/
def Sparse.get {α : Type} (d : α) : Sparse α → Nat → α
  | [], _ => d
  | (k, v) :: t, i => if k = i then v else Sparse.get d t i

/-- A list of pairs without those of one key. -/
def Sparse.erase {α : Type} (l : Sparse α) (i : Nat) : Sparse α := l.filter (fun e => e.1 != i)

/-- A pair put before the first greater key. -/
def Sparse.insert {α : Type} (i : Nat) (v : α) : Sparse α → Sparse α
  | [] => [(i, v)]
  | (k, w) :: t => if i < k then (i, v) :: (k, w) :: t else (k, w) :: Sparse.insert i v t

/-- The table with one key written; writing the default removes the key. -/
def Sparse.set {α : Type} [DecidableEq α] (d : α) (l : Sparse α) (i : Nat) (v : α) : Sparse α :=
  if v = d then Sparse.erase l i else Sparse.insert i v (Sparse.erase l i)

/-- The table with every value passed through `f`, for an `f` that keeps the default. -/
def Sparse.mapValues {α : Type} [DecidableEq α] (d : α) (f : α → α) (l : Sparse α) : Sparse α :=
  (List.map (fun e => (e.1, f e.2)) l).filter (fun e => e.2 != d)

/-- Whether the keys of a list of pairs rise strictly. -/
def Sparse.rising {α : Type} : Sparse α → Bool
  | [] => true
  | (k, _) :: t => t.all (fun e => decide (k < e.1)) && Sparse.rising t

/-- Whether a table is in canonical form: keys strictly rising, no value equal to the default. -/
def Sparse.wf {α : Type} [DecidableEq α] (d : α) (l : Sparse α) : Bool :=
  Sparse.rising l && l.all (fun e => e.2 != d)

/-- The byte at an address of the pages. -/
def Memory.read (m : Memory) (a : Nat) : Byte := Sparse.get Config.unwritten m a

/-- The pages with one byte written. -/
def Memory.write (m : Memory) (a : Nat) (b : Byte) : Memory := Sparse.set Config.unwritten m a b

/-- Whether the pages' bytes are in canonical form. -/
def Memory.wf (m : Memory) : Bool := Sparse.wf Config.unwritten m

/-! ### Parts of the state by port -/

/-- The other trunk port. -/
def otherPort : TrunkPort → TrunkPort
  | .a => .b
  | .b => .a

/-- A trunk port as a port. -/
def portOf : TrunkPort → Port
  | .a => .a
  | .b => .b

/-- A port as the ingress source it charges. -/
def sourceOf : Port → Source
  | .a => .a
  | .b => .b
  | .l => .l

/-- The state of a trunk port. -/
def State.trunk (s : State) : TrunkPort → Trunk
  | .a => s.trunkA
  | .b => s.trunkB

/-- The state with one trunk port replaced. -/
def State.setTrunk (s : State) (p : TrunkPort) (t : Trunk) : State :=
  match p with
  | .a => { s with trunkA := t }
  | .b => { s with trunkB := t }

/-- The state with one trunk port changed. -/
def State.onTrunk (s : State) (p : TrunkPort) (f : Trunk → Trunk) : State := s.setTrunk p (f (s.trunk p))

/-- The state with one receiver changed. -/
def State.onRx (s : State) (p : TrunkPort) (f : Receiver → Receiver) : State :=
  s.onTrunk p (fun t => { t with rx := f t.rx })

/-- The state with one transmitter changed. -/
def State.onTx (s : State) (p : TrunkPort) (f : Transmitter → Transmitter) : State :=
  s.onTrunk p (fun t => { t with tx := f t.tx })

/-- The state with one link monitor changed. -/
def State.onLink (s : State) (p : TrunkPort) (f : Link → Link) : State :=
  s.onTrunk p (fun t => { t with link := f t.link })

/-- PORT_ENABLE of a trunk port (R97). -/
def State.enabled (s : State) : TrunkPort → Bool
  | .a => s.params.portEnableA
  | .b => s.params.portEnableB

/-- Whether a trunk port's link is UP and the port enabled. -/
def State.usable (s : State) (p : TrunkPort) : Bool := s.enabled p && (s.trunk p).link.up

/-- RETRY_LIMIT of a trunk port (R72). -/
def State.retryLimit (s : State) : TrunkPort → Nat
  | .a => s.params.retryLimitA
  | .b => s.params.retryLimitB

/-- RETRY_POLICY of a trunk port (R76). -/
def State.retryPolicy (s : State) : TrunkPort → RetryPolicy
  | .a => s.params.retryPolicyA
  | .b => s.params.retryPolicyB

/-- QUEUE_DEPTH of a port (R63). -/
def State.depth (s : State) : Port → Nat
  | .a => s.params.queueDepthA
  | .b => s.params.queueDepthB
  | .l => s.params.queueDepthL

/-- The queues of a port. -/
def State.queues (s : State) : Port → QueueSet
  | .a => s.trunkA.queues
  | .b => s.trunkB.queues
  | .l => s.loc.queues

/-- The state with a port's queues replaced. -/
def State.setQueues (s : State) (q : Port) (x : QueueSet) : State :=
  match q with
  | .a => { s with trunkA := { s.trunkA with queues := x } }
  | .b => { s with trunkB := { s.trunkB with queues := x } }
  | .l => { s with loc := { s.loc with queues := x } }

/-- One queue of a port. -/
def QueueSet.get (q : QueueSet) (c : TrafficClass) : List Nat :=
  if c = 0 then q.c0 else if c = 1 then q.c1 else if c = 2 then q.c2 else q.c3

/-- A port's queues with one replaced. -/
def QueueSet.set (q : QueueSet) (c : TrafficClass) (x : List Nat) : QueueSet :=
  if c = 0 then { q with c0 := x }
  else if c = 1 then { q with c1 := x }
  else if c = 2 then { q with c2 := x }
  else { q with c3 := x }

/-- Whether one of a port's queues holds a record (R64). -/
def QueueSet.holds (q : QueueSet) (r : Nat) : Bool :=
  q.c0.contains r || q.c1.contains r || q.c2.contains r || q.c3.contains r

/-- The entries of a port in class order, each queue from head to tail (R65). -/
def QueueSet.entries (q : QueueSet) : List Entry :=
  q.c0.map (fun r => { cls := 0, frame := r }) ++ q.c1.map (fun r => { cls := 1, frame := r }) ++
    q.c2.map (fun r => { cls := 2, frame := r }) ++ q.c3.map (fun r => { cls := 3, frame := r })

/-- Whether any egress queue of the node holds a record. -/
def State.isQueued (s : State) (r : Nat) : Bool :=
  (s.queues .a).holds r || (s.queues .b).holds r || (s.queues .l).holds r

/-- Whether a record is on a steering backlog. -/
def State.onBacklog (s : State) (r : Nat) : Bool :=
  s.steer.backlogA.contains r || s.steer.backlogB.contains r || s.steer.backlogL.contains r

/-- A steering backlog (R4). -/
def State.backlog (s : State) : Port → List Nat
  | .a => s.steer.backlogA
  | .b => s.steer.backlogB
  | .l => s.steer.backlogL

/-- The state with a steering backlog replaced. -/
def State.setBacklog (s : State) (q : Port) (x : List Nat) : State :=
  match q with
  | .a => { s with steer := { s.steer with backlogA := x } }
  | .b => { s with steer := { s.steer with backlogB := x } }
  | .l => { s with steer := { s.steer with backlogL := x } }

/-- Own station (R118). -/
def Numbering.own : Numbering → Option Station
  | .unnumbered => none
  | .numbered s _ => some s

/-- The Source of a frame the node builds: own station, 255 while UNNUMBERED (R120, R152). -/
def Numbering.source (n : Numbering) : Station := n.own.getD 255

/-- Whether the node is NUMBERED (R118). -/
def Numbering.isNumbered : Numbering → Bool
  | .unnumbered => false
  | .numbered _ _ => true

/-- Whether a node reset is pending (R163). -/
def State.resetPending (s : State) : Bool :=
  match s.mgmt.executor with
  | .resetPending _ => true
  | _ => false

/-- One use of the free value: the next choice has another number (log 3). -/
def State.chosen (s : State) : State := { s with choices := s.choices + 1 }

/-! ### Statistics (R114) -/

/-- The statistics of a trunk port. -/
inductive TrunkStat where
  | framesStored
  | duplicates
  | headerErrors
  | checkFailures
  | busyRefusals
  | sourceInvalid
  | enumMisdirected
  | framesSent
  | retransmissions
  | strayAcks
  | retryExhaustions
  | residenceDiscards
  | queueFullSkips
  deriving DecidableEq, Repr

/-- A trunk statistic by its number in PORT_A and PORT_B (R105). -/
def TrunkStat.ofNumber : Nat → Option TrunkStat
  | 0 => some .framesStored
  | 1 => some .duplicates
  | 2 => some .headerErrors
  | 3 => some .checkFailures
  | 4 => some .busyRefusals
  | 5 => some .sourceInvalid
  | 6 => some .enumMisdirected
  | 7 => some .framesSent
  | 8 => some .retransmissions
  | 9 => some .strayAcks
  | 10 => some .retryExhaustions
  | 11 => some .residenceDiscards
  | 12 => some .queueFullSkips
  | _ => none

/-- The value of a trunk statistic. -/
def TrunkStats.get (t : TrunkStats) : TrunkStat → Half
  | .framesStored => t.framesStored
  | .duplicates => t.duplicates
  | .headerErrors => t.headerErrors
  | .checkFailures => t.checkFailures
  | .busyRefusals => t.busyRefusals
  | .sourceInvalid => t.sourceInvalid
  | .enumMisdirected => t.enumMisdirected
  | .framesSent => t.framesSent
  | .retransmissions => t.retransmissions
  | .strayAcks => t.strayAcks
  | .retryExhaustions => t.retryExhaustions
  | .residenceDiscards => t.residenceDiscards
  | .queueFullSkips => t.queueFullSkips

/-- The statistics of a trunk port with one changed. -/
def TrunkStats.on (t : TrunkStats) (f : Half → Half) : TrunkStat → TrunkStats
  | .framesStored => { t with framesStored := f t.framesStored }
  | .duplicates => { t with duplicates := f t.duplicates }
  | .headerErrors => { t with headerErrors := f t.headerErrors }
  | .checkFailures => { t with checkFailures := f t.checkFailures }
  | .busyRefusals => { t with busyRefusals := f t.busyRefusals }
  | .sourceInvalid => { t with sourceInvalid := f t.sourceInvalid }
  | .enumMisdirected => { t with enumMisdirected := f t.enumMisdirected }
  | .framesSent => { t with framesSent := f t.framesSent }
  | .retransmissions => { t with retransmissions := f t.retransmissions }
  | .strayAcks => { t with strayAcks := f t.strayAcks }
  | .retryExhaustions => { t with retryExhaustions := f t.retryExhaustions }
  | .residenceDiscards => { t with residenceDiscards := f t.residenceDiscards }
  | .queueFullSkips => { t with queueFullSkips := f t.queueFullSkips }

/-- The statistics of the local port. -/
inductive LocalStat where
  | framesIn
  | framesOut
  | localRefusals
  | residenceDiscards
  | queueFullSkips
  deriving DecidableEq, Repr

/-- A local statistic by its number in LOCAL (R105). -/
def LocalStat.ofNumber : Nat → Option LocalStat
  | 0 => some .framesIn
  | 1 => some .framesOut
  | 2 => some .localRefusals
  | 3 => some .residenceDiscards
  | 4 => some .queueFullSkips
  | _ => none

/-- The value of a local statistic. -/
def LocalStats.get (t : LocalStats) : LocalStat → Half
  | .framesIn => t.framesIn
  | .framesOut => t.framesOut
  | .localRefusals => t.localRefusals
  | .residenceDiscards => t.residenceDiscards
  | .queueFullSkips => t.queueFullSkips

/-- The local statistics with one changed. -/
def LocalStats.on (t : LocalStats) (f : Half → Half) : LocalStat → LocalStats
  | .framesIn => { t with framesIn := f t.framesIn }
  | .framesOut => { t with framesOut := f t.framesOut }
  | .localRefusals => { t with localRefusals := f t.localRefusals }
  | .residenceDiscards => { t with residenceDiscards := f t.residenceDiscards }
  | .queueFullSkips => { t with queueFullSkips := f t.queueFullSkips }

/-- The statistics of the management engine. -/
inductive MgmtStat where
  | requestsExecuted
  | malformed
  | requestsRefused
  | replays
  | replaysSuppressed
  | responsesDropped
  deriving DecidableEq, Repr

/-- A management statistic by its number in MGMT (R105). -/
def MgmtStat.ofNumber : Nat → Option MgmtStat
  | 0 => some .requestsExecuted
  | 1 => some .malformed
  | 2 => some .requestsRefused
  | 3 => some .replays
  | 4 => some .replaysSuppressed
  | 5 => some .responsesDropped
  | _ => none

/-- The value of a management statistic. -/
def MgmtStats.get (t : MgmtStats) : MgmtStat → Half
  | .requestsExecuted => t.requestsExecuted
  | .malformed => t.malformed
  | .requestsRefused => t.requestsRefused
  | .replays => t.replays
  | .replaysSuppressed => t.replaysSuppressed
  | .responsesDropped => t.responsesDropped

/-- The management statistics with one changed. -/
def MgmtStats.on (t : MgmtStats) (f : Half → Half) : MgmtStat → MgmtStats
  | .requestsExecuted => { t with requestsExecuted := f t.requestsExecuted }
  | .malformed => { t with malformed := f t.malformed }
  | .requestsRefused => { t with requestsRefused := f t.requestsRefused }
  | .replays => { t with replays := f t.replays }
  | .replaysSuppressed => { t with replaysSuppressed := f t.replaysSuppressed }
  | .responsesDropped => { t with responsesDropped := f t.responsesDropped }

/-- A trunk statistic raised by 1, saturating (R114). -/
def State.raiseTrunk (s : State) (p : TrunkPort) (k : TrunkStat) : State :=
  s.onTrunk p (fun t => { t with stats := t.stats.on satInc k })

/-- A local statistic raised by 1, saturating. -/
def State.raiseLocal (s : State) (k : LocalStat) : State :=
  { s with loc := { s.loc with stats := s.loc.stats.on satInc k } }

/-- A management statistic raised by 1, saturating. -/
def State.raiseMgmt (s : State) (k : MgmtStat) : State :=
  { s with mgmt := { s.mgmt with stats := s.mgmt.stats.on satInc k } }

/-- "queue-full skips" of a port raised by 1 (R21). -/
def State.raiseSkip (s : State) : Port → State
  | .a => s.raiseTrunk .a .queueFullSkips
  | .b => s.raiseTrunk .b .queueFullSkips
  | .l => s.raiseLocal .queueFullSkips

/-! ### Frame records and their bytes (R26, R27, R35) -/

/-- A frame record. -/
def State.record (s : State) (r : Nat) : FrameRecord := Sparse.get FrameRecord.blank s.store.recs r

/-- The state with a frame record replaced. -/
def State.setRecord (s : State) (r : Nat) (f : FrameRecord) : State :=
  { s with store := { s.store with recs := Sparse.set FrameRecord.blank s.store.recs r f } }

/-- The address of byte `i` of a frame: its page in page-list order, then the offset in the page (R35). -/
def FrameRecord.addr (f : FrameRecord) (i : Nat) : Option Nat :=
  (f.pages[i / Config.pageSize]?).map (fun pg => pg * Config.pageSize + i % Config.pageSize)

/-- Byte `i` of a stored frame. -/
def State.frameByte (s : State) (r : Nat) (i : Nat) : Byte :=
  match (s.record r).addr i with
  | some a => Memory.read s.store.mem a
  | none => 0

/-- A stored frame: its ten header bytes and its payload. -/
def State.frameBytes (s : State) (r : Nat) : List Byte :=
  (List.range (s.record r).size).map (s.frameByte r)

/-- The payload of a stored frame. -/
def State.payload (s : State) (r : Nat) : List Byte := (s.frameBytes r).drop 10

/-- The stored header of a frame. -/
def State.header (s : State) (r : Nat) : Header := parseHeader ((List.range 10).map (s.frameByte r))

/-- Byte `i` of a frame written; bytes beyond the stored size are not written (R35). -/
def State.writeFrameByte (s : State) (r : Nat) (i : Nat) (b : Byte) : State :=
  if i < (s.record r).size then
    match (s.record r).addr i with
    | some a => { s with store := { s.store with mem := Memory.write s.store.mem a b } }
    | none => s
  else s

/-- Bytes of a frame written from position `i` on, in order (R35). -/
def State.fill (s : State) (r : Nat) : (i : Nat) → List Byte → State
  | _, [] => s
  | i, b :: bs => State.fill (s.writeFrameByte r i b) r (i + 1) bs

/-- The stored header changed in place where steering may change it: bytes 0, 1, 4 and 5 (R15, R18, R19, R99). -/
def State.storeSteered (s : State) (r : Nat) (h : Header) : State :=
  (((s.writeFrameByte r 0 (headerByte0 h)).writeFrameByte r 1 (headerByte1 h)).writeFrameByte r 4
    (h.tag.extractLsb' 8 8)).writeFrameByte r 5 (h.tag.extractLsb' 0 8)

/-! ### Admission and release (R30 to R41) -/

/-- Held pages of a source (R40). -/
def Held.get (h : Held) : Source → Nat
  | .a => h.a
  | .b => h.b
  | .l => h.l
  | .i => h.i

/-- Held pages with those of one source changed. -/
def Held.on (h : Held) (f : Nat → Nat) : Source → Held
  | .a => { h with a := f h.a }
  | .b => { h with b := f h.b }
  | .l => { h with l := f h.l }
  | .i => { h with i := f h.i }

/-- The quota of a source (R36). -/
def State.quota (s : State) : Source → Nat
  | .a => s.params.quotaA
  | .b => s.params.quotaB
  | .l => s.params.quotaL
  | .i => s.params.quotaI

/-- The free pages a source must leave: RESERVE for A, B and L, none for I (R31, R32). -/
def reserveOf : Source → Nat
  | .i => 0
  | _ => Config.reserve

/-- Conditions 2 and 3 of R31 and R32 for `need` pages. -/
def State.roomFor (s : State) (src : Source) (need : Nat) : Bool :=
  decide (need + reserveOf src ≤ s.store.freePages.length) && decide (s.store.held.get src + need ≤ s.quota src)

/-- A granted admission (R30): the head record and the head pages are taken, the record's fields are set, it enters
FILLING, and the source's held pages rise. None where one of the three conditions of R31 or R32 fails. -/
def State.takeRoom (s : State) (src : Source) (len : Nat) : Option (Nat × State) :=
  match s.store.freeRecs with
  | [] => none
  | r :: rest =>
    if s.roomFor src (pagesNeeded len) then
      some (r,
        { s with
          store :=
            { s.store with
              freeRecs := rest
              freePages := s.store.freePages.drop (pagesNeeded len)
              held := s.store.held.on (· + pagesNeeded len) src
              recs := Sparse.set FrameRecord.blank s.store.recs r
                { state := .filling, source := src, size := 10 + len
                  pages := s.store.freePages.take (pagesNeeded len), arrival := s.nodeTime, refs := 0 } } })
    else none

/-- Steps 1 to 3 of a release (R38): pages and record number to the tails of the free lists, the held pages lowered. -/
def State.returnRoom (s : State) (r : Nat) : State :=
  { s with
    store :=
      { s.store with
        freePages := s.store.freePages ++ (s.record r).pages
        freeRecs := s.store.freeRecs ++ [r]
        held := s.store.held.on (· - (s.record r).pages.length) (s.record r).source } }

/-- A release announced to local ingress (R34): it counts for a frame in WAIT_ROOM; while a node reset is pending local
ingress asks nothing at a release (R178). -/
def State.announce (s : State) : State :=
  match s.loc.ingress with
  | .waitRoom h n =>
    if s.resetPending then s else { s with loc := { s.loc with ingress := .waitRoom h (n + 1) } }
  | _ => s

/-- The watermark set. -/
def State.setWatermark (s : State) (w : Watermark) : State := { s with store := { s.store with watermark := w } }

/-! ### The event queue (R168 to R175) -/

/-- The record an append would store (R170). -/
def State.newRecord (s : State) (k : EventKind) (p : Option Port) (d : Option Half) : EventRecord :=
  { seq := s.events.nextSeq, kind := k, port := p, time := s.nodeTime, detail := d }

/-- Whether a queue holds a record of a kind selected by a mask (R174). -/
def attentionOf (mask : Half) (records : List EventRecord) : Bool := records.any (fun e => selects mask e.kind)

/-- An append (R170) without the notice: stored with the next number while fewer than 32 are held, else lost and
counted. -/
def State.append (s : State) (k : EventKind) (p : Option Port) (d : Option Half) : State :=
  if s.events.records.length < 32 then
    { s with
      events :=
        { s.events with
          records := s.events.records ++ [s.newRecord k p d]
          nextSeq := s.events.nextSeq + 1
          attention := attentionOf s.params.attentionMask (s.events.records ++ [s.newRecord k p d]) } }
  else { s with events := { s.events with lost := satInc s.events.lost } }

/-- The target of an internally originated MRSP or NOTICE by its Destination (R23); none where the node is UNNUMBERED
and the Destination is not 255. -/
def State.routeByDest (s : State) (dest : Station) : Option Port :=
  match s.numbering with
  | .unnumbered => if dest = 255 then some .l else none
  | .numbered own up =>
    if dest = own || dest = 255 then some .l
    else if dest.toNat < own.toNat then some (portOf up) else some (portOf (otherPort up))

/-- Whether a port's link is DOWN under LINK_DOWN_POLICY = FLUSH, which skips placements (R21). -/
def State.flushing (s : State) : Port → Bool
  | .a => decide (s.params.linkDownPolicy = .flush) && !s.trunkA.link.up
  | .b => decide (s.params.linkDownPolicy = .flush) && !s.trunkB.link.up
  | .l => false

/-- Whether a placement into a port's queue is not skipped (R21). -/
def State.canPlace (s : State) (q : Port) (c : TrafficClass) : Bool :=
  decide (((s.queues q).get c).length < s.depth q) && !s.flushing q

/-- A placement at the tail of a port's queue (R21, R64): one more reference, record QUEUED. -/
def State.enqueue (s : State) (q : Port) (c : TrafficClass) (r : Nat) : State :=
  let s1 := s.setQueues q ((s.queues q).set c ((s.queues q).get c ++ [r]))
  s1.setRecord r { s1.record r with state := .queued, refs := (s1.record r).refs + 1 }

/-- One egress delivery: placed, or skipped and counted (R21). -/
def State.place (s : State) (q : Port) (c : TrafficClass) (r : Nat) : State :=
  if s.canPlace q c then s.enqueue q c r else s.raiseSkip q

/-- Whether a notice is due for an append that finds the queue empty (R172). -/
def State.noticeDue (s : State) : Bool :=
  s.params.monitorStation.isSome && s.numbering.isNumbered && !s.events.noticeOutstanding

/-- The watermark examined after the admission of a notice (R41): the STORE_LOW it may raise is appended behind the
record the notice carries, and raises no notice (R172). -/
def State.examineQuietly (s : State) : State :=
  match s.store.watermark with
  | .armed =>
    if s.store.freePages.length < Config.reserve then (s.setWatermark .low).append .storeLow none none else s
  | .low => if Config.rearm ≤ s.store.freePages.length then s.setWatermark .armed else s

/-- The bytes of a NOTICE carrying an event record (R172). -/
def State.noticeBytes (s : State) (e : EventRecord) : List Byte :=
  encodeHeader (ownHeader .notice (s.params.monitorStation.getD 255) s.numbering.source 0 0 10) ++ eventBytes e

/-- An internally originated frame placed in class 0 by its Destination, where that names a target (R23). -/
def State.placeByDest (s : State) (dest : Station) (r : Nat) : State :=
  match s.routeByDest dest with
  | some q => s.place q 0 r
  | none => s

/-- A notice whose placement was skipped is released at once (R24). After the examination of its own admission the
watermark is LOW or 34 pages are free, so this release raises nothing (R41). -/
def State.releaseSkippedNotice (s : State) (r : Nat) : State :=
  if (s.record r).refs = 0 then (s.returnRoom r).examineQuietly.announce else s

/-- The notice-outstanding flag set (R172). -/
def State.setNotice (s : State) : State := { s with events := { s.events with noticeOutstanding := true } }

/-- A notice carrying a record (R172): admitted under source I, built, placed in class 0 by its Destination, released at
once if the placement is skipped; the notice-outstanding flag is set on admission. -/
def State.sendNotice (s : State) (e : EventRecord) : State :=
  match s.takeRoom .i 10 with
  | none => s
  | some (r, s1) =>
    (((s1.examineQuietly.fill r 0 (s.noticeBytes e)).placeByDest (s.params.monitorStation.getD 255) r).releaseSkippedNotice
      r).setNotice

/-- An event handed to the event queue (R170): appended, and where the queue was empty the notice conditions examined
(R172). -/
def State.raiseEvent (s : State) (k : EventKind) (p : Option Port) (d : Option Half) : State :=
  let s1 := s.append k p d
  if s.events.records.isEmpty && s1.noticeDue then s1.sendNotice (s.newRecord k p d) else s1

/-- The watermark examined after an admission or a release (R41). -/
def State.examine (s : State) : State :=
  match s.store.watermark with
  | .armed =>
    if s.store.freePages.length < Config.reserve then (s.setWatermark .low).raiseEvent .storeLow none none else s
  | .low => if Config.rearm ≤ s.store.freePages.length then s.setWatermark .armed else s

/-- The outcome of an admission request (R30): granted with the record, or refused, with the mark of a refusal that no
release can cure (R31). -/
inductive Admission where
  | granted (r : Nat) (s : State)
  | refused (incurable : Bool)

/-- An admission request (R30). The examination of the watermark (R41) is part of it, so a STORE_LOW that it raises is appended,
and the NOTICE which that append may send (R172) placed, before the requester fills and places the frame just admitted: R64 leaves
the order of the two placements open, and this one is the model's choice (log 31). -/
def State.askRoom (s : State) (src : Source) (len : Nat) : Admission :=
  match s.takeRoom src len with
  | some (r, s1) => .granted r s1.examine
  | none => .refused (decide (s.quota src < pagesNeeded len))

/-- A release (R38), its five steps in order. -/
def State.release (s : State) (r : Nat) : State := (s.returnRoom r).examine.announce

/-! ### References and queue entries (R29, R65) -/

/-- A reference dropped (R29): at count 0 a record neither FILLING nor on a backlog is released; otherwise its state
follows its holders (R28). -/
def State.dropRef (s : State) (r : Nat) : State :=
  match (s.record r).refs with
  | 0 => s
  | n + 1 =>
    let s1 := s.setRecord r
      { s.record r with refs := n, state := if s.isQueued r then .queued else .waiting }
    if n = 0 && !s.onBacklog r && (s.record r).state != .filling then s1.release r else s1

/-- The watched response of a pending reset is no longer watched once its entry leaves (R164). -/
def State.unwatch (s : State) (q : Port) (r : Nat) : State :=
  match s.mgmt.executor with
  | .resetPending w =>
    if w.watched = some (q, r) then
      { s with mgmt := { s.mgmt with executor := .resetPending { w with watched := none } } }
    else s
  | _ => s

/-- An entry leaves its queue and drops its reference (R65). -/
def State.removeEntry (s : State) (q : Port) (e : Entry) : State :=
  ((s.setQueues q ((s.queues q).set e.cls (((s.queues q).get e.cls).erase e.frame))).unwatch q e.frame).dropRef e.frame

/-- The entries of a port that a predicate selects leave, classes 0 to 3, each queue from head to tail (R65). -/
def State.removeEntries (s : State) (q : Port) (f : Entry → Bool) : State :=
  ((s.queues q).entries.filter f).foldl (fun t e => t.removeEntry q e) s

/-- The head of a port's most urgent non-empty queue (R68). -/
def QueueSet.urgent (q : QueueSet) : Option Entry := q.entries.head?

/-- Whether a pending reset is due: no response is watched any more (R164). -/
def State.resetDue (s : State) : Bool :=
  match s.mgmt.executor with
  | .resetPending w => w.watched.isNone
  | _ => false

/-- Whether a record passes the residence check now (R69). -/
def State.fresh (s : State) (r : Nat) : Bool :=
  residencePasses s.params.residenceLimit s.nodeTime (s.record r).arrival

/-! ### Frames the node builds (R23, R24, R120) -/

/-- A frame handed to the internal route is released at once where nothing holds it (R24, R38). -/
def State.releaseUnheld (s : State) (r : Nat) : State :=
  if (s.record r).refs = 0 then s.release r else s

/-- A numbering frame sent out of a trunk port (R120, R24): admitted under source I, built, placed in class 0 on the
named port; not sent where admission is refused. -/
def State.sendNumbering (s : State) (p : TrunkPort) (header : Header) (payload : List Byte) : State :=
  match s.askRoom .i payload.length with
  | .refused _ => s
  | .granted r s1 => ((s1.fill r 0 (encodeHeader header ++ payload)).place (portOf p) 0 r).releaseUnheld r

end Sys2Proof.Machine
end

