-- ==== Sys2Proof/Machine/Local.lean ====
section
/-! DEFINITION. What the local port does, shared by its commands and by the resets: local ingress, its refusals and its
admission, local egress and the lines of both channels (R176 to R184). -/

namespace Sys2Proof.Machine

/-- The state with another local ingress state. -/
def State.setIngress (s : State) (x : Ingress) : State := { s with loc := { s.loc with ingress := x } }

/-- The state with another local egress state. -/
def State.setEgress (s : State) (x : Egress) : State := { s with loc := { s.loc with egress := x } }

/-- The node's inbound ready line (R176). -/
def State.inboundReady (s : State) : Bool :=
  match s.loc.ingress with
  | .idle => !s.resetPending
  | .waitRoom _ _ => false
  | _ => true

/-- Why a local frame is refused (R180). -/
inductive RefuseReason where
  | notNumbered
  | headerError
  | lengthMismatch
  | overQuota
  deriving DecidableEq, Repr

/-- The detail code of a refusal (R101). -/
def refuseCode : RefuseReason → Half
  | .notNumbered => 1
  | .headerError => 2
  | .lengthMismatch => 3
  | .overQuota => 4

/-- A local frame refused (R180): counted, LOCAL_REFUSED raised, DISCARD unless the byte marked last has been taken. -/
def State.refuseLocal (s : State) (why : RefuseReason) (lastTaken : Bool) : State :=
  ((s.raiseLocal .localRefusals).setIngress (if lastTaken then .idle else .discard)).raiseEvent .localRefused (some .l)
    (some (refuseCode why))

/-- The header of a local frame prepared for storage (R177): Source own station or 255, Seq 0, header check computed. -/
def State.prepareHeader (s : State) (taken : List Byte) : List Byte :=
  encodeHeader { parseHeader taken with source := s.numbering.source, seq := 0 }

/-- A complete local frame handed over (R179): WAITING, at the tail of backlog L, "frames in" raised, IDLE. -/
def State.handOverLocal (s : State) (r : Nat) : State :=
  (((s.setRecord r { s.record r with state := .waiting, refs := 0 }).setBacklog .l (s.steer.backlogL ++ [r])).raiseLocal
    .framesIn).setIngress .idle

/-- Local ingress asks the store for admission of the frame with a prepared header (R178); `n` announcements remain. -/
def State.askLocal (s : State) (prepared : List Byte) (n : Nat) : State :=
  let len := (parseHeader prepared).length.toNat
  match s.askRoom .l len with
  | .granted r s1 =>
    let s2 := s1.fill r 0 prepared
    if len = 0 then s2.handOverLocal r else s2.setIngress (.payload r 0 len)
  | .refused incurable =>
    if incurable then s.refuseLocal .overQuota (decide (len = 0)) else s.setIngress (.waitRoom prepared n)

/-- The local header judged at its tenth byte (R177), the first case that holds deciding. -/
def State.judgeLocal (s : State) (taken : List Byte) (last : Bool) : State :=
  let h := parseHeader taken
  if fieldsBad h || decide (kindOf h.kind = some .enum) || decide (kindOf h.kind = some .enumEnd) then
    s.refuseLocal .headerError last
  else if !s.numbering.isNumbered && decide (kindOf h.kind ≠ some .mreq) then s.refuseLocal .notNumbered last
  else if last != decide (h.length.toNat = 0) then s.refuseLocal .lengthMismatch last
  else if s.resetPending then s.setIngress (.waitRoom (s.prepareHeader taken) 0)
  else s.askLocal (s.prepareHeader taken) 0

/-- A header byte taken (R177). -/
def State.localHeaderByte (s : State) (taken : List Byte) (last : Bool) : State :=
  if taken.length < 10 then
    if last then s.refuseLocal .headerError true else s.setIngress (.header taken)
  else s.judgeLocal taken last

/-- A payload byte taken (R179): `k` payload bytes were taken before it. Where the frame is refused, its record is released
before LOCAL_REFUSED is raised: R179 names the release first and R180 the event first, and the order is the model's choice
(log 28). The byte that shows the mismatch is not written into the pages of that record: R179 has each byte taken written, but its
table says so only in its last row, and leaving the pages alone is the model's choice (log 34). -/
def State.localPayloadByte (s : State) (r k len : Nat) (byte : Byte) (last : Bool) : State :=
  let complete := decide (len ≤ k + 1)
  if last then
    if complete then (s.writeFrameByte r (10 + k) byte).handOverLocal r
    else (s.release r).refuseLocal .lengthMismatch true
  else if complete then (s.release r).refuseLocal .lengthMismatch false
  else (s.writeFrameByte r (10 + k) byte).setIngress (.payload r (k + 1) len)

/-- A byte offered on the inbound channel (R176): taken while inbound ready is high, else held by the device. -/
def State.takeLocalByte (s : State) (byte : Byte) (last : Bool) : State :=
  if s.inboundReady then
    match s.loc.ingress with
    | .idle => s.localHeaderByte [byte] last
    | .header taken => s.localHeaderByte (taken ++ [byte]) last
    | .waitRoom _ _ => s
    | .payload r k len => s.localPayloadByte r k len byte last
    | .discard => if last then s.setIngress .idle else s
  else s

/-- Local ingress acts on one announced release (R34, R178). -/
def State.retryLocal (s : State) : State :=
  match s.loc.ingress with
  | .waitRoom h (n + 1) => if s.resetPending then s else s.askLocal h n
  | _ => s

/-- A stored frame as the local device sees it: Seq 0, byte 9 computed (R99, R181). -/
def State.localImage (s : State) (r : Nat) : List Byte := sentImage (s.frameBytes r) 0

/-- What local egress offers the device: the byte with its last and abort lines; none where it offers nothing (R176, R181,
R184). In TRANSFER the spec does not say when after the byte before it this byte comes onto the lines; it is there when the
device takes it (LOCAL_EGRESS_BYTE), and whether it is there at a cut is a free choice (log 9). -/
def State.outboundLines (s : State) : Option OutByte :=
  match s.loc.egress with
  | .idle => none
  | .transfer e k =>
    some { data := byteAt (s.localImage e.frame) k, last := decide ((s.record e.frame).size ≤ k + 1), abort := false }
  | .aborting b => some { data := b, last := true, abort := true }

/-- Local egress's selection (R181), heads that fail the residence check removed and counted. A pending reset that a
removal makes due is performed before the selection goes on (R164). -/
def State.selectLocal (s : State) : (fuel : Nat) → State
  | 0 => s
  | n + 1 =>
    match s.loc.queues.urgent with
    | none => s
    | some e =>
      if s.fresh e.frame then s.setEgress (.transfer e 0)
      else
        let s1 := (s.raiseLocal .residenceDiscards).removeEntry .l e
        if s1.resetDue then s1 else State.selectLocal s1 n

/-- The device takes the byte on the outbound lines (R176, R182, R184). -/
def State.takeOutByte (s : State) : State :=
  let s1 := { s with loc := { s.loc with lastOut := s.outboundLines } }
  match s.loc.egress with
  | .idle => s
  | .transfer e k =>
    if (s.record e.frame).size ≤ k + 1 then ((s1.setEgress .idle).raiseLocal .framesOut).removeEntry .l e
    else s1.setEgress (.transfer e (k + 1))
  | .aborting _ => s1.setEgress .idle

/-- Local ingress at a traffic or full reset (R183), without the release of a record. -/
def ingressAfterReset : Ingress → Ingress
  | .idle => .idle
  | .header _ => .discard
  | .waitRoom h _ => if (parseHeader h).length.toNat = 0 then .idle else .discard
  | .payload _ _ _ => .discard
  | .discard => .discard

/-- The record local ingress is filling. -/
def Ingress.record? : Ingress → Option Nat
  | .payload r _ _ => some r
  | _ => none

/-- The byte a cut transfer marks with last and abort (R184): the byte now on the outbound lines or, if no byte is on the
lines, one further byte of value 0. Which of the two is the case is a free choice (log 9). -/
def State.markedByte (s : State) (e : Entry) (k : Nat) : Byte :=
  if Config.firstOrder s.choices then byteAt (s.localImage e.frame) k else 0

/-- A transfer in progress cut (R184): ABORTING with the marked byte, one free choice used. Local egress in IDLE or already in
ABORTING is unchanged; that a full reset leaves an ABORTING with its marked byte, as a traffic reset does, is the model's
choice: R184 and chapter 11's state table name only a transfer in progress there (log 26). -/
def State.cutEgress (s : State) : State :=
  match s.loc.egress with
  | .transfer e k => s.chosen.setEgress (.aborting (s.markedByte e k))
  | _ => s

end Sys2Proof.Machine
end

