-- ==== Sys2Proof/Machine/Transmit.lean ====
section
/-! DEFINITION. What the transmitter of a trunk port does, shared by its commands, by RELEASE_PORT, by the link
transitions and by the resets: copies, completion, failed attempts, exhaustion, suspension, resumption (R66 to R89). -/

namespace Sys2Proof.Machine

/-- The transmitter of a port. -/
def State.tx (s : State) (p : TrunkPort) : Transmitter := (s.trunk p).tx

/-- A transmitter IDLE with no frame in flight: attempt count 0, Sent and Acknowledged no, timer stopped (R71, R89). -/
def Transmitter.cleared (t : Transmitter) : Transmitter :=
  { t with state := .idle, attempts := 0, inFlight := none, sent := false, acked := false, timer := none }

/-- TxSeq advanced when a frame whose Sent mark is yes leaves (R67). -/
def Transmitter.advanced (t : Transmitter) : Transmitter :=
  if t.sent then { t with txSeq := t.txSeq + 1 } else t

/-- The frame in flight leaves the transmitter: its entry is removed and its reference dropped, TxSeq advances if it was
sent, and the transmitter is IDLE with no frame in flight (R67, R71, R78, R82, R89). -/
def State.leaveFlight (s : State) (p : TrunkPort) : State :=
  match (s.tx p).inFlight with
  | none => s.onTx p Transmitter.cleared
  | some e => (s.onTx p (fun t => t.advanced.cleared)).removeEntry (portOf p) e

/-- A copy of the frame in flight begins (R70): SENDING, Acknowledged no, timer stopped; the first copy raises
"frames sent" and sets Sent, every later one raises "retransmissions". -/
def State.startCopy (s : State) (p : TrunkPort) : State :=
  (s.raiseTrunk p (if (s.tx p).sent then .retransmissions else .framesSent)).onTx p
    (fun t => { t with state := .sending, sent := true, acked := false, timer := none })

/-- A frame in flight that fails the residence check is discarded and counted (R69). -/
def State.discardFlight (s : State) (p : TrunkPort) : State :=
  (s.raiseTrunk p .residenceDiscards).leaveFlight p

/-- A retransmission start (R69, R75, R85): the residence check, then a new copy with the same Seq, or the discard. -/
def State.retransmit (s : State) (p : TrunkPort) : State :=
  match (s.tx p).inFlight with
  | none => s
  | some e => if s.fresh e.frame then s.startCopy p else s.discardFlight p

/-- The transmitter when its link comes UP (R85): a suspended frame is resumed; a HELD port stays HELD. Selection with
no frame in flight is TX_SELECT's. -/
def State.resume (s : State) (p : TrunkPort) : State :=
  if (s.tx p).state = .idle then s.retransmit p else s

/-- The transmitter suspended (R84): IDLE with its frame in flight, the attempt count kept, the timer stopped. -/
def Transmitter.suspended (t : Transmitter) : Transmitter :=
  { t with state := .idle, acked := false, timer := none }

/-- The transmitter when its link goes DOWN (R84). -/
def State.suspend (s : State) (p : TrunkPort) : State :=
  match (s.tx p).state with
  | .idle => s
  | .held => s
  | .sending => if (s.tx p).acked then s.leaveFlight p else s.onTx p Transmitter.suspended
  | .awaitingAck => s.onTx p Transmitter.suspended
  | .retryWait => s.onTx p Transmitter.suspended

/-- Whether an entry is the held head of a HELD port. -/
def State.isHeldHead (s : State) (p : TrunkPort) (e : Entry) : Bool :=
  decide ((s.tx p).state = .held) && decide ((s.tx p).inFlight = some e)

/-- The flush of a DOWN event under LINK_DOWN_POLICY = FLUSH, after the transmitter has acted (R86): every entry leaves
but a held head; a suspended frame in flight leaves with them. -/
def State.flushDown (s : State) (p : TrunkPort) : State :=
  if s.params.linkDownPolicy = .flush then
    let s1 := s.removeEntries (portOf p) (fun e => !s.isHeldHead p e)
    if (s.tx p).state = .held || (s.tx p).inFlight.isNone then s1 else s1.onTx p (fun t => t.advanced.cleared)
  else s

/-- The event a retry policy raises for an exhausted frame, with the policy as detail (R78, R79, R101). -/
def State.raiseExhausted (s : State) (p : TrunkPort) (policy : RetryPolicy) : State :=
  s.raiseEvent .retryExhausted (some (portOf p)) (some (BitVec.ofNat 16 (policyCode policy)))

/-- An exhausted frame meets the port's retry policy (R76 to R79). -/
def State.exhaust (s : State) (p : TrunkPort) : State :=
  let s1 := s.raiseTrunk p .retryExhaustions
  match s.retryPolicy p with
  | .again => s1.onTx p (fun t => { t with state := .retryWait, attempts := 0, timer := some s.params.retryStep })
  | .drop => (s1.leaveFlight p).raiseExhausted p .drop
  | .hold =>
    ((s1.onTx p (fun t => { t with state := .held, timer := none })).raiseExhausted p .hold).raiseEvent .portHeld
      (some (portOf p)) none

/-- A failed attempt (R72): the timer is stopped and the attempt count rises; below RETRY_LIMIT a retry wait of
RETRY_STEP times the count follows, else exhaustion. A frame HELD with 15 attempts that a traffic reset suspends keeps its count
(R89), and fails again once resumed: R66 gives no count past 15, and that the count goes on to 16 is the model's choice (log 32). -/
def State.failAttempt (s : State) (p : TrunkPort) : State :=
  let n := (s.tx p).attempts + 1
  if n < s.retryLimit p then
    s.onTx p (fun t => { t with state := .retryWait, attempts := n, timer := some (s.params.retryStep * n) })
  else (s.onTx p (fun t => { t with attempts := n, timer := none })).exhaust p

/-- A stray ACK or NAK (R71, R74). -/
def State.stray (s : State) (p : TrunkPort) : State := s.raiseTrunk p .strayAcks

/-- An ACK handed to the transmitter (R71). -/
def State.takeAck (s : State) (p : TrunkPort) (seq : LinkSeq) : State :=
  if seq = (s.tx p).txSeq then
    match (s.tx p).state with
    | .idle => if (s.tx p).inFlight.isSome then s.leaveFlight p else s.stray p
    | .sending => if (s.tx p).acked then s.stray p else s.onTx p (fun t => { t with acked := true })
    | .awaitingAck => s.leaveFlight p
    | .retryWait => s.leaveFlight p
    | .held => s.stray p
  else s.stray p

/-- A NAK handed to the transmitter (R72, R73, R74). -/
def State.takeNak (s : State) (p : TrunkPort) (seq : LinkSeq) (reason : NakReason) : State :=
  if seq = (s.tx p).txSeq ∧ (s.tx p).state = .awaitingAck then
    match reason with
    | .check => s.failAttempt p
    | .busy => s.onTx p (fun t => { t with state := .retryWait, timer := some s.params.busyWait })
  else s.stray p

/-- Whether the transmitter may select a frame (R68), but for the queues. -/
def State.maySelect (s : State) (p : TrunkPort) : Bool :=
  decide ((s.tx p).state = .idle) && (s.tx p).inFlight.isNone && s.usable p

/-- Selection (R68, R69): heads of the most urgent non-empty queue that fail the residence check are removed and
counted; the first that passes becomes the frame in flight and its first copy begins. A pending reset that a removal
makes due is performed before the selection goes on (R164). -/
def State.select (s : State) (p : TrunkPort) : (fuel : Nat) → State
  | 0 => s
  | n + 1 =>
    match (s.trunk p).queues.urgent with
    | none => s
    | some e =>
      if s.fresh e.frame then
        (s.onTx p (fun t => { t with inFlight := some e, sent := false, acked := false })).startCopy p
      else
        let s1 := (s.raiseTrunk p .residenceDiscards).removeEntry (portOf p) e
        if s1.resetDue then s1 else State.select s1 p n

/-- The EOF of a copy has been sent (R70): completion if an ACK was taken during the copy, else AWAITING_ACK with
ACK_WAIT running. The line has carried the whole copy. -/
def State.endCopy (s : State) (p : TrunkPort) : State :=
  match (s.tx p).inFlight with
  | none => s
  | some e =>
    let s1 := s.onTrunk p (fun t => { t with lineOut := copySymbols (s.frameBytes e.frame) t.tx.txSeq })
    if (s.tx p).acked then s1.leaveFlight p
    else s1.onTx p (fun t => { t with state := .awaitingAck, timer := some s.params.ackWait })

/-- What a trunk port's symbol output sends in its next slot (R93, R97). -/
inductive Slot where
  | silent
  | answer (a : Answer)
  | copy
  | filler (x : Symbol)
  deriving DecidableEq, Repr

/-- The symbol output's choice for the next slot (R93): nothing while disabled; the oldest pending answer; the copy being
sent; filler, IDLE while UP and HELLO while DOWN. -/
def State.nextSlot (s : State) (p : TrunkPort) : Slot :=
  if !s.enabled p then .silent
  else
    match (s.trunk p).rx.answers with
    | a :: _ => .answer a
    | [] =>
      if (s.tx p).state = .sending then .copy
      else .filler (if (s.trunk p).link.up then .idle else .hello)

/-- The symbol of an answer (R91). -/
def answerSymbol : Answer → Symbol
  | .ack q => .ack q
  | .nak q r => .nak q r

/-- An answer leaves on the line (R59, R93). -/
def State.sendAnswer (s : State) (p : TrunkPort) : State :=
  match s.nextSlot p with
  | .answer a =>
    s.onTrunk p (fun t => { t with lineOut := [answerSymbol a], rx := { t.rx with answers := t.rx.answers.drop 1 } })
  | _ => s

end Sys2Proof.Machine
end

