-- ==== Sys2Proof/Machine/Reset.lean ====
section
/-! DEFINITION. The three resets as they reach each block (R25, R42, R43, R61, R88, R89, R117, R128, R146, R165, R166,
R175, R183, R184), and the moment a pending reset is performed (R164). POWER_ON_RESET and RESET_LIMIT_EXPIRY. -/

namespace Sys2Proof.Machine

/-- The watched response of a pending reset, exempt from a traffic reset performed at the limit (R89). -/
abbrev Watched := Option (Port × Nat)

/-- Whether an entry of a port is the exempt response. -/
def isExempt (w : Watched) (q : Port) (e : Entry) : Bool := decide (w = some (q, e.frame))

/-- The record a receiver is filling. -/
def Reception.record? : Reception → Option Nat
  | .waitSof => none
  | .header f => f.frame
  | .payload f => f.frame
  | .check f => f.frame

/-- A record abandoned in FILLING, where there is one (R35). -/
def State.abandon (s : State) : Option Nat → State
  | none => s
  | some r => s.release r

/-- A receiver at a traffic reset (R61). -/
def State.resetRx (s : State) (p : TrunkPort) : State :=
  (s.onRx p (fun x => { x with reception := .waitSof })).abandon (s.trunk p).rx.reception.record?

/-- A backlog emptied, every frame on it released (R25), the oldest first: R25 gives the releases no order, R38 allows either, and
R43 orders only references dropped within one queue, of which a frame on a backlog holds none, so the order is the model's choice
(log 35). -/
def State.resetBacklog (s : State) (q : Port) : State :=
  (s.backlog q).foldl State.release (s.setBacklog q [])

/-- A transmitter at a traffic reset (R89): the frame in flight leaves, unless it is the exempt response, which stays in
flight as it stands but for a HELD state, which ends. Where that response is in SENDING and its copy already acknowledged, R89
does not name the Acknowledged mark among what stays, and the mark is kept: the model's choice (log 30). -/
def State.resetTx (s : State) (p : TrunkPort) (w : Watched) : State :=
  match (s.tx p).inFlight with
  | none => s.onTx p Transmitter.cleared
  | some e =>
    if isExempt w (portOf p) e then
      if (s.tx p).state = .held then s.onTx p Transmitter.suspended else s
    else s.leaveFlight p

/-- A trunk port's sending side at a traffic reset (R89): transmitter, queues, and the resumption at once of a response
that was held while the link is UP. -/
def State.resetSender (s : State) (p : TrunkPort) (w : Watched) : State :=
  let s1 := (s.resetTx p w).removeEntries (portOf p) (fun e => !isExempt w (portOf p) e)
  if (s.tx p).state = .held && (s1.tx p).inFlight.isSome && s1.usable p then s1.resume p else s1

/-- Local egress at a traffic reset (R184, R89): a transfer is cut unless it carries the exempt response. -/
def State.resetEgress (s : State) (w : Watched) : State :=
  let cut :=
    match s.loc.egress with
    | .transfer e _ => !isExempt w .l e
    | _ => false
  (if cut then s.cutEgress else s).removeEntries .l (fun e => !isExempt w .l e)

/-- Local ingress at a traffic reset (R183). -/
def State.resetIngress (s : State) : State :=
  (s.setIngress (ingressAfterReset s.loc.ingress)).abandon s.loc.ingress.record?

/-- M emptied from head to tail (R147). -/
def State.resetRequests (s : State) : State :=
  (s.mgmt.queue.map Request.frame).foldl State.dropRef { s with mgmt := { s.mgmt with queue := [] } }

/-- The ENUMs held by N, unhandled, dropped (R128), the one held longest first: R43 orders the drops only within a queue, and N's
ENUMs are none, so the order is the model's choice (log 33). -/
def State.resetEnums (s : State) : State := s.enums.foldl State.dropRef { s with enums := [] }

/-- A meter refilled (R117). -/
def Meter.refilled (m : Meter) : Meter := { m with level := m.burst }

/-- The pending state ended, the executor IDLE (R164). -/
def State.endPending (s : State) : State := { s with mgmt := { s.mgmt with executor := .idle } }

/-- The cause codes of RESET_DONE (R101). -/
def causeCode : ResetScope → Half
  | .traffic => 2
  | .full => 3

/-- A traffic reset (R165), `w` the response still watched. The order among the blocks is the model's (log 5). -/
def State.trafficReset (s : State) (w : Watched) : State :=
  let s1 := ((s.endPending.resetRx .a).resetRx .b).resetIngress
  let s2 := ((s1.resetBacklog .a).resetBacklog .b).resetBacklog .l
  let s3 := (s2.resetRequests.resetEnums.resetEgress w)
  let s4 := { s3 with
    meters := Sparse.mapValues Meter.blank Meter.refilled s3.meters
    steer := { s3.steer with lastServed := .l } }
  ((s4.resetSender .a w).resetSender .b w).raiseEvent .resetDone none (some (causeCode .traffic))

/-- The power-on state of every block with RESET_DONE of a cause as the one event (R42, R166, R175). Page contents are
not cleared (R42). Every record is free, and its fields read as those of a record never handed out: R27 and R42 name no field
values for the free records of a reset, so this is the model's choice (log 2). Every block is reset in the one step: where R42
lets the reset reach the store before a requester, whose frame is then admitted to the emptied store and released at once, the
lists would be left rotated, and that they are in order here is the model's choice (log 29). The queue of waiting commands and
the numbering of free choices are the model's (log 15, log 3). -/
def State.poweredUp (s : State) (cause : Half) : State :=
  { State.reset with
    store := { State.reset.store with mem := s.store.mem }
    events :=
      { EventQueue.initial with
        records := [{ seq := 0, kind := .resetDone, port := none, time := 0, detail := some cause }] }
    choices := s.choices
    pending := s.pending }

/-- A power-on reset (R42, R175). -/
def State.powerOn (s : State) : State := s.poweredUp 1

/-- A full reset (R166): the power-on state, but local ingress and local egress end a frame partway through (R183,
R184). -/
def State.fullReset (s : State) : State :=
  let s1 := s.cutEgress.poweredUp (causeCode .full)
  { s1 with loc := { s1.loc with ingress := ingressAfterReset s.loc.ingress, egress := s.cutEgress.loc.egress } }

/-- The pending reset performed (R164). -/
def State.performReset (s : State) (r : PendingReset) : State :=
  match r.scope with
  | .traffic => s.trafficReset r.watched
  | .full => s.fullReset

/-- A pending reset whose watched response has left, or that watches none, is performed at that event (R164). -/
def State.settle (s : State) : State :=
  match s.mgmt.executor with
  | .resetPending r => if r.watched.isNone then s.performReset r else s
  | _ => s

/-- POWER_ON_RESET (R42). -/
def execPowerOnReset (s : State) : Outcome := .next s.powerOn

/-- RESET_LIMIT_EXPIRY (R164): the pending reset is performed with its response still queued. -/
def execResetLimitExpiry (s : State) : Outcome :=
  match s.mgmt.executor with
  | .resetPending r => .next (s.performReset r)
  | _ => .next s

end Sys2Proof.Machine
end

