-- ==== Sys2Proof/Machine/LocalPort.lean ====
section
/-! DEFINITION. The commands of the local port (R176 to R182): LOCAL_INGRESS_BYTE, LOCAL_ADMISSION_RETRY,
LOCAL_EGRESS_SELECT, LOCAL_EGRESS_BYTE. -/

namespace Sys2Proof.Machine

/-- LOCAL_INGRESS_BYTE (R177). -/
def execLocalIngressByte (byte : Byte) (last : Bool) (s : State) : Outcome := .next (s.takeLocalByte byte last)

/-- LOCAL_ADMISSION_RETRY (R178). -/
def execLocalAdmissionRetry (s : State) : Outcome := .next s.retryLocal

/-- LOCAL_EGRESS_SELECT (R181). -/
def execLocalEgressSelect (s : State) : Outcome :=
  if s.loc.egress = .idle then .next (s.selectLocal (s.loc.queues.entries.length + 1)).settle else .next s

/-- LOCAL_EGRESS_BYTE (R176). -/
def execLocalEgressByte (s : State) : Outcome := .next s.takeOutByte.settle

end Sys2Proof.Machine
end

