-- ==== Sys2Proof/Machine/Link.lean ====
section
/-! DEFINITION. The link monitor of a trunk port (R94 to R97): its run of good symbols, its two transitions and what they
are handed to; and the way one received symbol reaches monitor and receiver (R45, R91). SILENCE_TIMEOUT. -/

namespace Sys2Proof.Machine

/-- The good symbols that make a DOWN link UP (R95). -/
def runLength : Nat := 64

/-- The link of a port comes UP (R94, R95): LINK_UP is raised and the transmitter resumes a suspended frame (R85). The
order of the two is open (R94), so it is a free choice. -/
def State.linkUp (s : State) (p : TrunkPort) : State :=
  let s1 := (s.onLink p (fun l => { l with up := true })).chosen
  if Config.firstOrder s.choices then (s1.raiseEvent .linkUp (some (portOf p)) none).resume p
  else (s1.resume p).raiseEvent .linkUp (some (portOf p)) none

/-- The link of a port goes DOWN (R94, R96, R97): LINK_DOWN is raised, and the receiver (`rx`), the transmitter (R84) and,
under FLUSH, the queues after it (R86) act. The order of the event and of the blocks is open (R94), so it is a free
choice. -/
def State.linkDown (s : State) (p : TrunkPort) (silence : Bool) (rx : State → State) : State :=
  let s1 := (s.onLink p (fun l => { l with up := false, run := 0, silence := silence })).chosen
  if Config.firstOrder s.choices then
    (((rx (s1.raiseEvent .linkDown (some (portOf p)) none)).suspend p).flushDown p)
  else (((rx s1).suspend p).flushDown p).raiseEvent .linkDown (some (portOf p)) none

/-- A valid symbol counted (R95, R96): the silence timer restarts, and while the link is DOWN the run count rises. -/
def Link.heard (l : Link) : Link :=
  { l with silence := true, run := if l.up then l.run else l.run + 1 }

/-- Whether a DOWN link's run has reached 64 (R95). -/
def Link.runComplete (l : Link) : Bool := !l.up && decide (runLength ≤ l.run)

/-- A valid symbol received on a port (R45, R91): ignored while the port is disabled; otherwise the monitor counts it and
the receiver takes it (`rx`). Where it completes the run, the order of the link's UP event and of the receiver is open, so
it is a free choice. -/
def State.hear (s : State) (p : TrunkPort) (rx : State → State) : State :=
  if s.enabled p then
    let s1 := s.onLink p Link.heard
    if (s1.trunk p).link.runComplete then
      if Config.firstOrder s.choices then rx (s1.chosen.linkUp p) else (rx s1.chosen).linkUp p
    else rx s1
  else s

/-- A code error received (R45, R95, R96): ignored while the port is disabled; breaks the run while the link is DOWN. -/
def State.hearError (s : State) (p : TrunkPort) (rx : State → State) : State :=
  if s.enabled p then rx (s.onLink p (fun l => { l with run := if l.up then l.run else 0 })) else s

/-- A receiver whose link goes DOWN for silence (R60). -/
def State.loseFrame (s : State) (p : TrunkPort) : State :=
  let s1 := s.onRx p (fun x => { x with reception := .waitSof })
  match (s.trunk p).rx.reception with
  | .waitSof => s
  | .header _ => s1.raiseTrunk p .headerErrors
  | .payload f => (s1.abandon f.frame).raiseTrunk p .checkFailures
  | .check f => (s1.abandon f.frame).raiseTrunk p .checkFailures

/-- A receiver whose port is switched off (R60): the frame in progress ends without statistic, the pending answers are
emptied, LastSeq is kept. -/
def State.disableRx (s : State) (p : TrunkPort) : State :=
  (s.onRx p (fun x => { x with reception := .waitSof, answers := [] })).abandon (s.trunk p).rx.reception.record?

/-- The silence timer expires (R95, R96). -/
def State.silence (s : State) (p : TrunkPort) : State :=
  if s.enabled p && (s.trunk p).link.silence then
    if (s.trunk p).link.up then s.linkDown p true (fun t => t.loseFrame p)
    else s.onLink p (fun l => { l with run := 0, silence := true })
  else s

/-- A trunk port switched off (R87, R97). Where the link was already DOWN there is no DOWN event: nothing is flushed and
no event is raised (log 6). -/
def State.switchOff (s : State) (p : TrunkPort) : State :=
  if (s.trunk p).link.up then s.linkDown p false (fun t => t.disableRx p)
  else (s.onLink p (fun l => { l with run := 0, silence := false })).disableRx p

/-- A trunk port switched on (R97). -/
def State.switchOn (s : State) (p : TrunkPort) : State :=
  s.onLink p (fun l => { l with up := false, run := 0, silence := true })

/-- SILENCE_TIMEOUT (R96). -/
def execSilenceTimeout (p : TrunkPort) (s : State) : Outcome := .next (s.silence p).settle

end Sys2Proof.Machine
end

