-- ==== Sys2Proof/Machine/Commands.lean ====
section
/-! DEFINITION. How a command of the request in execution is taken (R133, R136, R144, R150, R151): its checks in order, its
answer, the commands skipped after a failure, the session timer's restart. -/

namespace Sys2Proof.Machine

/-- What a command's own checks give: a failing result, or its data and its effect; `reset` is a scope a RESET_NODE
records (R162). -/
inductive Verdict where
  | fail (r : CmdResult)
  | pass (data : List Byte) (reset : Option ResetScope) (s : State)

/-- The command a body of checks is given: its requester, its argument bytes, whether it is the last counted (R162). -/
structure Call where
  requester : Station
  args : List Byte
  isLast : Bool
  deriving DecidableEq, Repr

/-- An argument byte. -/
def Call.arg (c : Call) (i : Nat) : Byte := byteAt c.args i

/-- The bytes of the response counted so far: header, an entry for every counted command, data of those answered (R151). -/
def Execution.used (e : Execution) : Nat := 4 + 4 * e.count + (e.done.map (fun d => d.data.length)).sum

/-- The request in execution, the command it stands at and those after it; none where no command waits. -/
def State.current (s : State) : Option (Execution × Cmd × List Cmd) :=
  match s.mgmt.executor with
  | .executing e =>
    match e.todo with
    | c :: rest => some (e, c, rest)
    | [] => none
  | _ => none

/-- The session timer restarted by an executed command of the owner, while a session is open and no swap requested
(R133). -/
def State.touchTimer (s : State) (requester : Station) : State :=
  if s.session.state ≠ .closed ∧ s.session.owner = some requester ∧ s.session.swapRequested = false then
    { s with session := { s.session with timer := some s.params.editTimeout } }
  else s

/-- A command answered SKIPPED (R150). -/
def skippedEntry (c : Cmd) : CmdEntry := { code := c.code, result := .skipped, data := [] }

/-- The request in execution after a command's answer: a result other than OK skips the commands after it (R150). -/
def Execution.answered (e : Execution) (c : Cmd) (rest : List Cmd) (res : CmdResult) (data : List Byte)
    (reset : Option ResetScope) : Execution :=
  let entry : CmdEntry := { code := c.code, result := res, data := data }
  if res = .ok then { e with todo := rest, done := e.done ++ [entry], reset := reset.or e.reset }
  else { e with todo := [], done := e.done ++ [entry] ++ rest.map skippedEntry }

/-- A command answered (R150), and the session timer restarted where it is the owner's (R133). -/
def State.answerCmd (s : State) (e : Execution) (c : Cmd) (rest : List Cmd) (res : CmdResult) (data : List Byte)
    (reset : Option ResetScope) : State :=
  ({ s with mgmt := { s.mgmt with executor := .executing (e.answered c rest res data reset) } } : State).touchTimer
    e.requester

/-- The three checks of R150 in order: argument length, the command's own, response size. -/
def verdictOf (e : Execution) (c : Cmd) (rest : List Cmd) (body : Call → State → Verdict) (s : State) : Verdict :=
  if argLength c.code ≠ some c.args.length then .fail .badValue
  else
    match body { requester := e.requester, args := c.args, isLast := rest.isEmpty } s with
    | .fail r => .fail r
    | .pass data reset s1 => if e.used + data.length ≤ 1024 then .pass data reset s1 else .fail .tooLong

/-- The next command of the request in execution, where it is one that `takes` names, is taken whole (R150). Where the
executor does not stand at such a command there is no such event (log 4). -/
def runCommand (takes : Cmd → Bool) (body : Call → State → Verdict) (s : State) : State :=
  match s.current with
  | none => s
  | some (e, c, rest) =>
    if takes c then
      match verdictOf e c rest body s with
      | .fail r => s.answerCmd e c rest r [] none
      | .pass data reset s1 => s1.answerCmd e c rest .ok data reset
    else s

/-- A command with no data and a plain effect. -/
def done (s : State) : Verdict := .pass [] none s

/-- A read: data and no effect. -/
def reads (data : List Byte) (s : State) : Verdict := .pass data none s

/-- Whether a command has a code. -/
def hasCode (code : Byte) (c : Cmd) : Bool := c.code == code

/-- Whether the configuration lock refuses a requester (R144). -/
def State.lockRefuses (s : State) (requester : Station) : Bool :=
  decide (s.session.state ≠ .closed) && decide (s.session.owner ≠ some requester)

/-- The check of a session command (R136); `waits` for those answered BUSY during a copy. -/
def State.sessionCheck (s : State) (requester : Station) (waits : Bool) : Option CmdResult :=
  match s.session.state with
  | .closed => some .noSession
  | .opened => if s.session.owner = some requester then none else some .locked
  | .syncing => if s.session.owner = some requester then (if waits then some .busy else none) else some .locked

end Sys2Proof.Machine
end

