-- ==== Sys2Proof/Machine/Steering.lean ====
section
/-! DEFINITION. The steering unit (R1 to R25): the lookup arbiter, steering without tables, matching, the decision, the
meter charge and the counter bump, placement; LOOKUP, BANK_SWAP and METER_TICK. -/

namespace Sys2Proof.Machine

/-! ### Banks (R3, R130) -/

/-- The bank that is not the named one. -/
def otherBank : BankName → BankName
  | .bank0 => .bank1
  | .bank1 => .bank0

/-- A bank by its name. -/
def Steering.bank (t : Steering) : BankName → Bank
  | .bank0 => t.bank0
  | .bank1 => t.bank1

/-- The active bank, which lookups read (R3). -/
def State.activeBank (s : State) : Bank := s.steer.bank s.steer.selector

/-- The shadow bank, open to editing (R130). -/
def State.shadowBank (s : State) : Bank := s.steer.bank (otherBank s.steer.selector)

/-- The state with the shadow bank replaced. -/
def State.setShadow (s : State) (b : Bank) : State :=
  match s.steer.selector with
  | .bank0 => { s with steer := { s.steer with bank1 := b } }
  | .bank1 => { s with steer := { s.steer with bank0 := b } }

/-- A Steering Table entry of a bank. -/
def Bank.entry (b : Bank) (i : Nat) : SteerEntry := Sparse.get SteerEntry.blank b.table i

/-- A Channel Map entry of a bank. -/
def Bank.mapEntry (b : Bank) (i : Nat) : MapEntry := Sparse.get MapEntry.blank b.map i

/-- A bank with one Steering Table entry replaced. -/
def Bank.setEntry (b : Bank) (i : Nat) (e : SteerEntry) : Bank :=
  { b with table := Sparse.set SteerEntry.blank b.table i e }

/-- A bank with one Channel Map entry replaced. -/
def Bank.setMapEntry (b : Bank) (i : Nat) (e : MapEntry) : Bank :=
  { b with map := Sparse.set MapEntry.blank b.map i e }

/-! ### Meters and entry counters (R106 to R113) -/

/-- A meter. -/
def State.meter (s : State) (i : Nat) : Meter := Sparse.get Meter.blank s.meters i

/-- The state with a meter replaced. -/
def State.setMeter (s : State) (i : Nat) (m : Meter) : State :=
  { s with meters := Sparse.set Meter.blank s.meters i m }

/-- An entry counter. -/
def State.counter (s : State) (i : Nat) : EntryCounter := Sparse.get EntryCounter.blank s.counters i

/-- The state with an entry counter replaced. -/
def State.setCounter (s : State) (i : Nat) (c : EntryCounter) : State :=
  { s with counters := Sparse.set EntryCounter.blank s.counters i c }

/-- A meter at its replenish tick (R107). -/
def Meter.tick (m : Meter) : Meter := if m.enabled then { m with level := min m.burst (m.level + m.rate) } else m

/-- A meter after a charge of `size` bytes, and the exceed action where the frame exceeds (R108, R109). -/
def Meter.charge (m : Meter) (size : Nat) : Meter × Option ExceedAction :=
  if !m.enabled then (m, none)
  else if size ≤ m.level then ({ m with level := m.level - size }, none)
  else ({ m with exceed := satInc m.exceed }, some m.action)

/-- An entry counter bumped by a frame of `size` bytes, each count saturating on its own (R113). -/
def EntryCounter.bump (c : EntryCounter) (size : Nat) : EntryCounter :=
  { frames := satInc c.frames, bytes := satAdd c.bytes size }

/-! ### The arbiter (R5) -/

/-- The cyclic order A, B, L. -/
def nextSource : Port → Port
  | .a => .b
  | .b => .l
  | .l => .a

/-- The first non-empty backlog after the last source served (R5). -/
def State.arbitrate (s : State) : Option Port :=
  let p1 := nextSource s.steer.lastServed
  let p2 := nextSource p1
  let p3 := nextSource p2
  if !(s.backlog p1).isEmpty then some p1
  else if !(s.backlog p2).isEmpty then some p2
  else if !(s.backlog p3).isEmpty then some p3
  else none

/-- The trunk port of a source; none for the local port. -/
def trunkOf : Port → Option TrunkPort
  | .a => some .a
  | .b => some .b
  | .l => none

/-! ### Matching (R10 to R12) -/

/-- A value equal to another in every bit position of a mask (R10). -/
def maskedEq {w : Nat} (x value mask : BitVec w) : Bool := x &&& mask == value &&& mask

/-- Whether an Arrival holds for a frame from a source, `up` being the Upstream port (R11). -/
def arrivalHolds (want : Arrival) (from_ : Port) (up : TrunkPort) : Bool :=
  match want with
  | .any => true
  | .a => from_ == .a
  | .b => from_ == .b
  | .upstream => from_ == portOf up
  | .downstream => from_ == portOf (otherPort up)
  | .localPort => from_ == .l

/-- Whether a Kinds set holds a kind; ENUM and ENUM_END belong to none (R1, R7). -/
def Kinds.has (k : Kinds) : FrameKind → Bool
  | .data => k.data
  | .mreq => k.mreq
  | .mrsp => k.mrsp
  | .notice => k.notice
  | .enum => false
  | .enumEnd => false

/-- Whether a Mark condition holds (R10). -/
def markHolds (c : MarkCond) (mark : Bool) : Bool :=
  match c with
  | .dontCare => true
  | .clear => !mark
  | .set => mark

/-- Whether an entry matches a frame (R10). -/
def SteerEntry.matches (e : SteerEntry) (from_ : Port) (up : TrunkPort) (kind : FrameKind) (h : Header) : Bool :=
  e.valid && arrivalHolds e.arrival from_ up && e.kinds.has kind && maskedEq h.dest e.destValue e.destMask &&
    maskedEq h.source e.srcValue e.srcMask && maskedEq h.channel e.chanValue e.chanMask &&
    maskedEq h.tag e.tagValue e.tagMask && markHolds e.mark h.mark

/-- The better of the best entry so far and a further matching one of a higher index (R12). -/
def betterEntry (best : Option SteerEntry) (e : SteerEntry) : Option SteerEntry :=
  match best with
  | none => some e
  | some b => if b.priority < e.priority then some e else some b

/-- The winner among the 256 entries of a bank: highest Priority, then lowest index (R12). -/
def Bank.winner (b : Bank) (from_ : Port) (up : TrunkPort) (kind : FrameKind) (h : Header) : Option SteerEntry :=
  (List.range 256).foldl
    (fun best i => if (b.entry i).matches from_ up kind h then betterEntry best (b.entry i) else best) none

/-! ### The decision (R13 to R17) -/

/-- Default steering (R14). -/
def defaultDelivery (kind : FrameKind) (dest own : Station) : Delivery :=
  if kind = .mreq then
    { forward := dest != own, turn := false, toLocal := false, mgmt := dest == own || dest == 255 }
  else { forward := dest != own, turn := false, toLocal := dest == own || dest == 255, mgmt := false }

/-- The Channel Map entry a winner consults: BY-CHANNEL, and Defer clear (R13). -/
def mapDecision (b : Bank) (w : SteerEntry) (h : Header) : Option MapEntry :=
  if w.byChannel && !(b.mapEntry h.channel.toNat).defer then some (b.mapEntry h.channel.toNat) else none

/-- The delivery set of a lookup (R13). -/
def deliveryFor (b : Bank) (w : Option SteerEntry) (kind : FrameKind) (h : Header) (own : Station) : Delivery :=
  match w with
  | none => defaultDelivery kind h.dest own
  | some e =>
    if e.byChannel then
      match mapDecision b e h with
      | some m => m.delivery
      | none => defaultDelivery kind h.dest own
    else e.delivery

/-- The class of a lookup but for a DEMOTE (R15 cases 2 to 4). -/
def classFor (b : Bank) (w : Option SteerEntry) (h : Header) : TrafficClass :=
  match w with
  | none => h.cls
  | some e =>
    match (mapDecision b e h).bind MapEntry.classOverride with
    | some c => c
    | none => e.classOverride.getD h.cls

/-- The targets of a lookup: trunk ports A and B, the local port, M (R16). -/
structure Targets where
  a : Bool
  b : Bool
  l : Bool
  m : Bool
  deriving DecidableEq, Repr

/-- Whether FORWARD resolves to a port (R16). -/
def forwardsTo (from_ : Port) (up : TrunkPort) (dest own : Station) (q : Port) : Bool :=
  match trunkOf from_ with
  | some p => q == portOf (otherPort p)
  | none =>
    if dest = own then q == .l
    else if dest = 255 then q == .a || q == .b
    else if dest.toNat < own.toNat then q == portOf up
    else q == portOf (otherPort up)

/-- The delivery words resolved to targets (R16). -/
def resolve (d : Delivery) (from_ : Port) (up : TrunkPort) (kind : FrameKind) (dest own : Station) : Targets :=
  let hit : Port → Bool := fun q => (d.forward && forwardsTo from_ up dest own q) || (d.turn && from_ == q)
  { a := hit .a, b := hit .b, l := hit .l || d.toLocal, m := d.mgmt && decide (kind = .mreq) }

/-- Whether a frame is a protected MREQ (R17). -/
def isProtected (kind : FrameKind) (h : Header) (own : Station) : Bool :=
  decide (kind = .mreq) && h.source != 255 && (h.dest == own || h.dest == 255)

/-- The targets after protection (R17) and a DROP (R19). -/
def finalTargets (t : Targets) (prot dropped : Bool) : Targets :=
  if dropped then { a := false, b := false, l := false, m := prot } else { t with m := t.m || prot }

/-! ### Placement (R21, R22) -/

/-- A delivery to M: placed with its requester, or refused and counted when M holds four (R21, R147). -/
def State.placeRequest (s : State) (r : Nat) (requester : Station) : State :=
  if s.mgmt.queue.length < 4 then
    let s1 : State := { s with mgmt := { s.mgmt with queue := s.mgmt.queue ++ [Request.mk r requester] } }
    s1.setRecord r { s1.record r with refs := (s1.record r).refs + 1 }
  else s.raiseMgmt .requestsRefused

/-- An ENUM delivered to N, which refuses none (R7). -/
def State.placeEnum (s : State) (r : Nat) : State :=
  let s1 : State := { s with enums := s.enums ++ [r] }
  s1.setRecord r { s1.record r with refs := (s1.record r).refs + 1 }

/-- Every target of a set receives its delivery (R21). -/
def State.placeAll (s : State) (t : Targets) (c : TrafficClass) (r : Nat) (requester : Station) : State :=
  let s1 := if t.a then s.place .a c r else s
  let s2 := if t.b then s1.place .b c r else s1
  let s3 := if t.l then s2.place .l c r else s2
  if t.m then s3.placeRequest r requester else s3

/-- The end of placement (R22): a record with no reference is released; otherwise it is QUEUED or WAITING by its
holders. -/
def State.finishPlacement (s : State) (r : Nat) : State :=
  if (s.record r).refs = 0 then s.release r
  else s.setRecord r { s.record r with state := if s.isQueued r then .queued else .waiting }

/-! ### The effects of a lookup (R18 to R20) -/

/-- The header after the winner's rewrites (R18 step 1). -/
def rewritten (w : Option SteerEntry) (h : Header) : Header :=
  match w with
  | none => h
  | some e => { h with tag := e.newTag.getD h.tag, channel := e.newChannel.getD h.channel }

/-- The winner's meter charged (R18 step 2, R19), with the exceed action where the frame exceeds. -/
def State.chargeMeter (s : State) (w : Option SteerEntry) (size : Nat) : State × Option ExceedAction :=
  match w.bind SteerEntry.meter with
  | none => (s, none)
  | some i =>
    let c := (s.meter i.toNat).charge size
    (s.setMeter i.toNat c.1, c.2)

/-- The winner's entry counter bumped (R18 step 3, R20). -/
def State.bumpCounter (s : State) (w : Option SteerEntry) (size : Nat) : State :=
  match w.bind SteerEntry.counter with
  | none => s
  | some i => s.setCounter i.toNat ((s.counter i.toNat).bump size)

/-- One lookup by the tables (R13 to R22) of the record `r`, taken off the backlog of `from_`, at a node of station `own`
whose Upstream port is `up`. -/
def State.steerByTables (s : State) (r : Nat) (from_ : Port) (kind : FrameKind) (h : Header) (own : Station)
    (up : TrunkPort) : State :=
  let b := s.activeBank
  let w := b.winner from_ up kind h
  let size := (s.record r).size
  let charged := s.chargeMeter w size
  let prot := isProtected kind h own
  let dropped := decide (charged.2 = some .drop)
  let s1 := if dropped && !prot then charged.1 else charged.1.bumpCounter w size
  let cls := if charged.2 = some .demote then 3 else classFor b w h
  let h1 := { rewritten w h with cls := cls, mark := h.mark || decide (charged.2 = some .mark) }
  let t := finalTargets (resolve (deliveryFor b w kind h own) from_ up kind h.dest own) prot dropped
  (((s1.storeSteered r h1).placeAll t cls r h.source).finishPlacement r)

/-- Steering without the tables while UNNUMBERED (R9). -/
def State.carryThrough (s : State) (r : Nat) (from_ : Port) (kind : FrameKind) (h : Header) : State :=
  match trunkOf from_ with
  | some p => (s.place (portOf (otherPort p)) h.cls r).finishPlacement r
  | none => (if kind = .mreq then s.placeRequest r h.source else s).finishPlacement r

/-- A numbering frame (R7): an ENUM to N, an ENUM_END to the other trunk port in its own Class. -/
def State.steerNumbering (s : State) (r : Nat) (p : TrunkPort) (kind : FrameKind) (h : Header) : State :=
  (if kind = .enum then s.placeEnum r else s.place (portOf (otherPort p)) h.cls r).finishPlacement r

/-- The head frame of a backlog, already taken off it, is steered (R6). A stored frame's Kind is one of R99's and local
ingress hands over no numbering frame, so the two discards here are met by no stored frame. -/
def State.steerFrame (s : State) (r : Nat) (from_ : Port) : State :=
  let h := s.header r
  match kindOf h.kind with
  | none => s.finishPlacement r
  | some kind =>
    if kind = .enum ∨ kind = .enumEnd then
      match trunkOf from_ with
      | some p => s.steerNumbering r p kind h
      | none => s.finishPlacement r
    else
      match trunkOf from_, h.source == 255 with
      | some p, true => (s.raiseTrunk p .sourceInvalid).finishPlacement r
      | _, _ =>
        match s.numbering with
        | .unnumbered => s.carryThrough r from_ kind h
        | .numbered own up => s.steerByTables r from_ kind h own up

/-- A lookup (R5, R6): the arbiter's backlog gives its head to the steering unit. -/
def State.lookup (s : State) : State :=
  match s.arbitrate with
  | none => s
  | some q =>
    match s.backlog q with
    | [] => s
    | r :: rest =>
      let s1 := s.setBacklog q rest
      ({ s1 with steer := { s1.steer with lastServed := q } } : State).steerFrame r q

/-- LOOKUP (R6). -/
def execLookup (s : State) : Outcome := .next s.lookup

/-- The requested swap taken (R3, R141): the selector flips and the generation rises by 1. -/
def State.swapBanks (s : State) : State :=
  { s with
    steer := { s.steer with selector := otherBank s.steer.selector, generation := s.steer.generation + 1 }
    session := { s.session with swapTaken := true } }

/-- BANK_SWAP (R3): taken where a swap is requested and not yet taken. -/
def execBankSwap (s : State) : Outcome :=
  if s.session.swapRequested && !s.session.swapTaken then .next s.swapBanks else .next s

/-- METER_TICK (R107): node time advances by 1 ms and every meter takes its replenish tick (log 14). -/
def execMeterTick (s : State) : Outcome :=
  .next { s with nodeTime := s.nodeTime + 1, meters := Sparse.mapValues Meter.blank Meter.tick s.meters }

end Sys2Proof.Machine
end

