-- ==== Sys2Proof/Machine/Management.lean ====
section
/-! DEFINITION. The management engine (R147 to R167) and the commands on state outside the banks: INFO, READ_METER,
WRITE_METER, READ_COUNTERS, READ_COUNTERS_CLEAR, READ_PARAM, WRITE_PARAM, PORT_ENABLE_WRITE, ATTENTION_MASK_WRITE,
RELEASE_PORT_RETRY, RELEASE_PORT_DROP, RELEASE_PORT_FLUSH, READ_EVENTS, RESET_NODE; REQUEST_START and
RESPONSE_HANDOVER. -/

namespace Sys2Proof.Machine

/-! ### Reads and writes of meters and counters -/

/-- INFO's data (R103, R153). -/
def bodyInfo (_ : Call) (s : State) : Verdict :=
  reads ([0x0A, 0x31, 0x24, 0x16, 0x01, s.numbering.own.getD 0, orientationCode s.numbering,
      if s.numbering.isNumbered then 1 else 0] ++
    beBytes 4 s.nodeTime.toNat ++ halfBytes s.steer.generation ++ [sessionCode s.session.state]) s

/-- INFO (R153). -/
def execInfo (s : State) : Outcome := .next (runCommand (hasCode 0x01) bodyInfo s)

/-- READ_METER's checks and data (R112). -/
def bodyReadMeter (c : Call) (s : State) : Verdict :=
  let index := (c.arg 0).toNat
  let count := (c.arg 1).toNat
  if count = 0 ∨ 8 < count then .fail .badValue
  else if 32 < index + count then .fail .badIndex
  else reads ((List.range count).flatMap (fun i => meterBytes (s.meter (index + i)))) s

/-- READ_METER (R112). -/
def execReadMeter (s : State) : Outcome := .next (runCommand (hasCode 0x0B) bodyReadMeter s)

/-- WRITE_METER's checks and effect (R111, R144). -/
def bodyWriteMeter (c : Call) (s : State) : Verdict :=
  if 31 < (c.arg 0).toNat then .fail .badIndex
  else
    match controlOf (c.arg 1) with
    | none => .fail .badValue
    | some (enabled, action) =>
      if s.lockRefuses c.requester then .fail .locked
      else
        let burst := (halfAt c.args 4).toNat
        done (s.setMeter (c.arg 0).toNat
          { enabled := enabled, rate := (halfAt c.args 2).toNat, burst := burst, level := burst, action := action
            exceed := 0 })

/-- WRITE_METER (R111). -/
def execWriteMeter (s : State) : Outcome := .next (runCommand (hasCode 0x0C) bodyWriteMeter s)

/-- The counter groups (R103). -/
inductive Group where
  | entry
  | portA
  | portB
  | local_
  | mgmt
  deriving DecidableEq, Repr

/-- A counter group from its code. -/
def groupOf (b : Byte) : Option Group :=
  match b.toNat with
  | 0 => some .entry
  | 1 => some .portA
  | 2 => some .portB
  | 3 => some .local_
  | 4 => some .mgmt
  | _ => none

/-- The last number of a group (R115). -/
def Group.top : Group → Nat
  | .entry => 63
  | .portA => 12
  | .portB => 12
  | .local_ => 4
  | .mgmt => 5

/-- The record of one counter or statistic (R105, R115). -/
def State.counterRecord (s : State) (g : Group) (n : Nat) : List Byte :=
  match g with
  | .entry => counterBytes (s.counter n)
  | .portA => halfBytes (((TrunkStat.ofNumber n).map s.trunkA.stats.get).getD 0)
  | .portB => halfBytes (((TrunkStat.ofNumber n).map s.trunkB.stats.get).getD 0)
  | .local_ => halfBytes (((LocalStat.ofNumber n).map s.loc.stats.get).getD 0)
  | .mgmt => halfBytes (((MgmtStat.ofNumber n).map s.mgmt.stats.get).getD 0)

/-- The statistics of a trunk port with number `n` set to 0. -/
def TrunkStats.clearNumber (t : TrunkStats) (n : Nat) : TrunkStats :=
  match TrunkStat.ofNumber n with
  | some k => t.on (fun _ => 0) k
  | none => t

/-- The local statistics with number `n` set to 0. -/
def LocalStats.clearNumber (t : LocalStats) (n : Nat) : LocalStats :=
  match LocalStat.ofNumber n with
  | some k => t.on (fun _ => 0) k
  | none => t

/-- The management statistics with number `n` set to 0. -/
def MgmtStats.clearNumber (t : MgmtStats) (n : Nat) : MgmtStats :=
  match MgmtStat.ofNumber n with
  | some k => t.on (fun _ => 0) k
  | none => t

/-- One counter or statistic set to 0 (R116). -/
def State.clearCounter (s : State) (g : Group) (n : Nat) : State :=
  match g with
  | .entry => s.setCounter n EntryCounter.blank
  | .portA => { s with trunkA := { s.trunkA with stats := s.trunkA.stats.clearNumber n } }
  | .portB => { s with trunkB := { s.trunkB with stats := s.trunkB.stats.clearNumber n } }
  | .local_ => { s with loc := { s.loc with stats := s.loc.stats.clearNumber n } }
  | .mgmt => { s with mgmt := { s.mgmt with stats := s.mgmt.stats.clearNumber n } }

/-- READ_COUNTERS's checks, data and clear (R115, R116, R144), the first case that applies. -/
def bodyReadCounters (c : Call) (s : State) : Verdict :=
  let start := (c.arg 1).toNat
  let count := (c.arg 2).toNat
  match groupOf (c.arg 0) with
  | none => .fail .badValue
  | some g =>
    if 1 < (c.arg 3).toNat then .fail .badValue
    else if count = 0 then .fail .badValue
    else if g.top < start + count - 1 then .fail .badIndex
    else if c.arg 3 = 1 ∧ s.lockRefuses c.requester = true then .fail .locked
    else
      .pass ((List.range count).flatMap (fun i => s.counterRecord g (start + i))) none
        (if c.arg 3 = 1 then (List.range count).foldl (fun t i => t.clearCounter g (start + i)) s else s)

/-- Whether a READ_COUNTERS asks for a clear. One whose clear flag is neither 0 nor 1 is READ_COUNTERS's (log 7). -/
def asksClear (c : Cmd) : Bool := byteAt c.args 3 == 1

/-- READ_COUNTERS (R115). -/
def execReadCounters (s : State) : Outcome :=
  .next (runCommand (fun c => hasCode 0x0D c && !asksClear c) bodyReadCounters s)

/-- READ_COUNTERS_CLEAR (R116). -/
def execReadCountersClear (s : State) : Outcome :=
  .next (runCommand (fun c => hasCode 0x0D c && asksClear c) bodyReadCounters s)

/-! ### Parameters (R155, R156) -/

/-- READ_PARAM's checks and data (R155). -/
def bodyReadParam (c : Call) (s : State) : Verdict :=
  match paramValue s.params (c.arg 0).toNat with
  | none => .fail .badIndex
  | some v => reads (halfBytes v) s

/-- READ_PARAM (R155). -/
def execReadParam (s : State) : Outcome := .next (runCommand (hasCode 0x0E) bodyReadParam s)

/-- The checks of a WRITE_PARAM (R156), and its effect by parameter number and value. -/
def writeChecked (effect : State → Nat → Nat → State) (c : Call) (s : State) : Verdict :=
  let n := (c.arg 0).toNat
  let v := (halfAt c.args 1).toNat
  if n = 0 ∨ 21 < n then .fail .badIndex
  else if !paramValid n v then .fail .badValue
  else if s.lockRefuses c.requester then .fail .locked
  else done (effect s n v)

/-- A parameter written, to be read at its owner's next use (R156). -/
def State.writeParam (s : State) (n v : Nat) : State := { s with params := setParam s.params n v }

/-- Whether a WRITE_PARAM names PORT_ENABLE_A (17) or PORT_ENABLE_B (18). -/
def namesEnable (c : Cmd) : Bool := byteAt c.args 0 == 17 || byteAt c.args 0 == 18

/-- Whether a WRITE_PARAM names ATTENTION_MASK (21). -/
def namesMask (c : Cmd) : Bool := byteAt c.args 0 == 21

/-- WRITE_PARAM (R156) of a parameter with no immediate effect of its own. -/
def execWriteParam (s : State) : Outcome :=
  .next (runCommand (fun c => hasCode 0x0F c && !namesEnable c && !namesMask c) (writeChecked State.writeParam) s)

/-- The effect of a PORT_ENABLE write (R97): none where the value is the one held. -/
def State.writeEnable (s : State) (n v : Nat) : State :=
  let p : TrunkPort := if n = 17 then .a else .b
  if s.enabled p = (v == 1) then s
  else if v = 1 then (s.writeParam n v).switchOn p
  else (s.writeParam n v).switchOff p

/-- PORT_ENABLE_WRITE (R97). -/
def execPortEnableWrite (s : State) : Outcome :=
  .next (runCommand (fun c => hasCode 0x0F c && namesEnable c) (writeChecked State.writeEnable) s)

/-- The effect of an ATTENTION_MASK write (R174): the output is recomputed at the write. -/
def State.writeMask (s : State) (n v : Nat) : State :=
  let s1 := s.writeParam n v
  { s1 with events := { s1.events with attention := attentionOf s1.params.attentionMask s1.events.records } }

/-- ATTENTION_MASK_WRITE (R174). -/
def execAttentionMaskWrite (s : State) : Outcome :=
  .next (runCommand (fun c => hasCode 0x0F c && namesMask c) (writeChecked State.writeMask) s)

/-! ### RELEASE_PORT (R80 to R83) -/

/-- PORT_RELEASED raised with the disposition as detail (R80, R101). -/
def State.raiseReleased (s : State) (p : TrunkPort) (d : Disposition) : State :=
  s.raiseEvent .portReleased (some (portOf p)) (some (BitVec.ofNat 16 d.code))

/-- The held frame sent again at once, or suspended (R81). -/
def State.releaseRetry (s : State) (p : TrunkPort) : State :=
  let s1 := s.onTx p (fun t => { t with attempts := 0 })
  if s.usable p then s1.startCopy p else s1.onTx p Transmitter.suspended

/-- The held frame given up (R82). -/
def State.releaseDrop (s : State) (p : TrunkPort) : State := s.leaveFlight p

/-- The held port's four queues emptied, the held frame among them (R83). -/
def State.releaseFlush (s : State) (p : TrunkPort) : State :=
  (s.removeEntries (portOf p) (fun _ => true)).onTx p (fun t => t.advanced.cleared)

/-- A disposition carried out. -/
def State.carryOut (s : State) (p : TrunkPort) : Disposition → State
  | .retry => s.releaseRetry p
  | .drop => s.releaseDrop p
  | .flush => s.releaseFlush p

/-- RELEASE_PORT's checks and effect for a disposition (R80, R144). -/
def bodyRelease (d : Disposition) (c : Call) (s : State) : Verdict :=
  match trunkPortOf (c.arg 0) with
  | none => .fail .badValue
  | some p =>
    if (c.arg 1).toNat ≠ d.code then .fail .badValue
    else if s.lockRefuses c.requester then .fail .locked
    else if (s.tx p).state ≠ .held then .fail .notHeld
    else done ((s.carryOut p d).raiseReleased p d)

/-- Whether a RELEASE_PORT names a disposition. -/
def namesDisposition (d : Disposition) (c : Cmd) : Bool := (byteAt c.args 1).toNat == d.code

/-- RELEASE_PORT_RETRY (R81). A RELEASE_PORT whose disposition is none of the three is taken here (log 7). -/
def execReleasePortRetry (s : State) : Outcome :=
  .next (runCommand (fun c => hasCode 0x10 c && !namesDisposition .drop c && !namesDisposition .flush c)
    (bodyRelease .retry) s)

/-- RELEASE_PORT_DROP (R82). -/
def execReleasePortDrop (s : State) : Outcome :=
  .next (runCommand (fun c => hasCode 0x10 c && namesDisposition .drop c) (bodyRelease .drop) s)

/-- RELEASE_PORT_FLUSH (R83). -/
def execReleasePortFlush (s : State) : Outcome :=
  .next (runCommand (fun c => hasCode 0x10 c && namesDisposition .flush c) (bodyRelease .flush) s)

/-! ### READ_EVENTS and RESET_NODE -/

/-- The event queue with its first `n` records removed by a READ_EVENTS (R171). -/
def State.takeEvents (s : State) (n : Nat) : State :=
  let left := s.events.records.drop n
  { s with
    events :=
      { s.events with
        records := left
        lost := 0
        noticeOutstanding := s.events.noticeOutstanding && !left.isEmpty
        attention := attentionOf s.params.attentionMask left } }

/-- READ_EVENTS's checks, data and removal (R154, R171). -/
def bodyReadEvents (c : Call) (s : State) : Verdict :=
  let max := (c.arg 0).toNat
  if max = 0 ∨ 16 < max then .fail .badValue
  else
    let n := min max s.events.records.length
    .pass (halfBytes s.events.lost ++ [BitVec.ofNat 8 n] ++ (s.events.records.take n).flatMap eventBytes) none
      (s.takeEvents n)

/-- READ_EVENTS (R171). -/
def execReadEvents (s : State) : Outcome := .next (runCommand (hasCode 0x11) bodyReadEvents s)

/-- RESET_NODE's checks, and the scope it records (R162). -/
def bodyResetNode (c : Call) (s : State) : Verdict :=
  match scopeOf (c.arg 0) with
  | none => .fail .badValue
  | some scope =>
    if !c.isLast then .fail .notLast
    else if s.lockRefuses c.requester then .fail .locked
    else .pass [] (some scope) s

/-- RESET_NODE (R162). -/
def execResetNode (s : State) : Outcome := .next (runCommand (hasCode 0x12) bodyResetNode s)

/-! ### The start of an execution (R148, R149, R159) -/

/-- The response cache in another state. -/
def State.setCache (s : State) (x : List CacheEntry) : State := { s with mgmt := { s.mgmt with cache := x } }

/-- The executor in another state. -/
def State.setExecutor (s : State) (x : Executor) : State := { s with mgmt := { s.mgmt with executor := x } }

/-- The cached response a request asks for again (R159). -/
def State.cached (s : State) (requester : Station) (id : Half) : Option CacheEntry :=
  s.mgmt.cache.find? (fun c => c.requester == requester && c.id == id)

/-- A cached response placed again (R159): QUEUED, its arrival time the node time of the placement. -/
def State.placeReplay (s : State) (q : Port) (r : Nat) : State :=
  let s1 := s.enqueue q 0 r
  (s1.setRecord r { s1.record r with arrival := s.nodeTime }).raiseMgmt .replays

/-- The replay of a cached response (R159): suppressed where its port's queues hold it, placed, or skipped. -/
def State.replay (s : State) (c : CacheEntry) : State :=
  match s.routeByDest (s.header c.frame).dest with
  | none => s
  | some q =>
    if (s.queues q).holds c.frame then s.raiseMgmt .replaysSuppressed
    else if s.canPlace q 0 then s.placeReplay q c.frame
    else s.raiseSkip q

/-- The request in execution leaves M and drops its reference (R147). -/
def State.endRequest (s : State) : State :=
  match s.mgmt.queue with
  | [] => s
  | q :: rest => ({ s with mgmt := { s.mgmt with queue := rest } } : State).dropRef q.frame

/-- The executor takes the head of M (R148): replayed on a cache hit, else parsed and in execution. -/
def State.startRequest (s : State) (q : Request) : State :=
  let payload := s.payload q.frame
  match s.cached q.requester (requestId payload) with
  | some c => ((s.setCache (s.mgmt.cache.erase c ++ [c])).replay c).endRequest
  | none =>
    let e : Execution :=
      { requester := q.requester, id := requestId payload, malformed := false, count := 0, todo := [], done := []
        reset := none }
    match parseRequest payload with
    | none => (s.raiseMgmt .malformed).setExecutor (.executing { e with malformed := true })
    | some cmds => s.setExecutor (.executing { e with count := cmds.length, todo := cmds })

/-- REQUEST_START (R148). Stages 1 and 2 are one event here, as they are one row of the table: the model's choice (log 36). -/
def execRequestStart (s : State) : Outcome :=
  match s.mgmt.executor, s.mgmt.queue with
  | .idle, q :: _ => .next (s.startRequest q)
  | _, _ => .next s

/-! ### The hand-over of a response (R152, R160, R161, R163) -/

/-- The least recently used cache entry evicted, its reference dropped (R160). -/
def State.evict (s : State) : State :=
  match s.mgmt.cache with
  | [] => s
  | c :: rest => (s.setCache rest).dropRef c.frame

/-- Admission of a response, the cache evicted while it is refused (R160); none where it is refused with the cache
empty (R161). -/
def State.admitResponse (s : State) (len : Nat) : (fuel : Nat) → Option Nat × State
  | 0 => (none, s)
  | n + 1 =>
    match s.askRoom .i len with
    | .granted r s1 => (some r, s1)
    | .refused _ => if s.mgmt.cache.isEmpty then (none, s) else State.admitResponse s.evict len n

/-- A response inserted in the cache (R160): one reference taken; the requester's entry replaced, or the least recently
used one evicted where eight are held. -/
def State.cacheResponse (s : State) (c : CacheEntry) : State :=
  let s1 := s.setRecord c.frame
    { s.record c.frame with
      refs := (s.record c.frame).refs + 1, state := if s.isQueued c.frame then .queued else .waiting }
  let s2 :=
    match s1.mgmt.cache.find? (fun x => x.requester == c.requester) with
    | some old => (s1.setCache (s1.mgmt.cache.erase old)).dropRef old.frame
    | none => if s1.mgmt.cache.length < 8 then s1 else s1.evict
  s2.setCache (s2.mgmt.cache ++ [c])

/-- The request in execution at the head of M; a blank header where M is empty. -/
def State.requestHeader (s : State) : Header :=
  match s.mgmt.queue with
  | q :: _ => s.header q.frame
  | [] => parseHeader []

/-- The header of the response (R152). -/
def State.responseHeader (s : State) (e : Execution) (len : Nat) : Header :=
  ownHeader .mrsp e.requester s.numbering.source s.requestHeader.channel s.requestHeader.tag len

/-- The egress entry the hand-over places, watched by a pending reset (R163). -/
def State.watchedFor (s : State) (dest : Station) (r : Nat) : Watched :=
  match s.routeByDest dest with
  | some q => if s.canPlace q 0 then some (q, r) else none
  | none => none

/-- A response built, admitted, placed and cached, or dropped (R152, R160, R161); with the entry its placement made. -/
def State.respond (s : State) (e : Execution) : State × Watched :=
  let payload := responsePayload e.id e.malformed e.done
  match s.admitResponse payload.length (s.mgmt.cache.length + 1) with
  | (some r, s1) =>
    let s2 := s1.fill r 0 (encodeHeader (s1.responseHeader e payload.length) ++ payload)
    ((s2.placeByDest e.requester r).cacheResponse { requester := e.requester, id := e.id, frame := r },
      s2.watchedFor e.requester r)
  | (none, s1) =>
    ((s1.raiseMgmt .responsesDropped).raiseEvent .responseDropped none (some (e.requester.setWidth 16)), none)

/-- The executor after an execution: RESET_PENDING where a RESET_NODE was answered OK, else IDLE (R148, R163). -/
def afterExecution (reset : Option ResetScope) (w : Watched) : Executor :=
  match reset with
  | some scope => .resetPending { scope := scope, watched := w }
  | none => .idle

/-- Stage 4 and the end of the execution (R148, R160, R163, R167). -/
def State.handOver (s : State) (e : Execution) : State :=
  let s1 := if e.malformed then s else s.raiseMgmt .requestsExecuted
  let x := s1.respond e
  x.1.endRequest.setExecutor (afterExecution e.reset x.2)

/-- RESPONSE_HANDOVER (R160): taken when every command of the request in execution has been answered; a reset that
watches no response is performed at once (R164). Build, admission with its evictions, and hand-over are one event here, as they are
one row of the table: R148 lets other blocks act between the admission and the hand-over, and that none does is the model's choice
(log 36). -/
def execResponseHandover (s : State) : Outcome :=
  match s.mgmt.executor with
  | .executing e => if e.todo.isEmpty then .next (s.handOver e).settle else .next s
  | _ => .next s

end Sys2Proof.Machine
end

