-- ==== Sys2Proof/Machine/Numbering.lean ====
section
/-! DEFINITION. The numbering unit (R118 to R129): ENUM_HANDLING. -/

namespace Sys2Proof.Machine

/-- The fields of an ENUM's payload (R119). -/
structure EnumOffer where
  next : Station
  force : Bool
  run : Half
  deriving DecidableEq, Repr

/-- The offer of an ENUM payload; none where the payload is not valid (R119). -/
def enumOffer (payload : List Byte) : Option EnumOffer :=
  if payload.length ≠ 4 || byteAt payload 0 == 0 || (byteAt payload 1).extractLsb' 1 7 != 0 then none
  else some { next := byteAt payload 0, force := (byteAt payload 1).getLsbD 0, run := halfAt payload 2 }

/-- The trunk port a record arrived on. -/
def arrivalPort : Source → Option TrunkPort
  | .a => some .a
  | .b => some .b
  | .l => none
  | .i => none

/-- An ENUM sent on (R120, R121 step 5). -/
def State.sendEnum (s : State) (p : TrunkPort) (next : Station) (force : Bool) (run : Half) : State :=
  s.sendNumbering p (ownHeader .enum 255 s.numbering.source 0 0 4) (enumPayload next force run)

/-- An ENUM_END sent out of the port of arrival, then LINE_END (R120, R121, R123). -/
def State.sendEnumEnd (s : State) (p : TrunkPort) (last : Station) (status : EndStatus) (run : Half) : State :=
  (s.sendNumbering p (ownHeader .enumEnd 0 s.numbering.source 0 0 4) (enumEndPayload last status run)).raiseEvent
    .lineEnd (some (portOf p)) (some (status.code.setWidth 16))

/-- The run passed on or ended (R121 step 5, R124): an ENUM out of the other port where that is enabled and UP, else an
ENUM_END END out of the port of arrival. -/
def State.passOn (s : State) (p : TrunkPort) (own : Station) (force : Bool) (run : Half) : State :=
  if s.usable (otherPort p) then s.sendEnum (otherPort p) (own + 1) force run
  else s.sendEnumEnd p own .lineEnd run

/-- The offered number taken (R121 case 1). A NOTICE that NUMBER_TAKEN, or the LINE_END after it, raises in this event is built
and placed by the new state, station and orientation: R121 lists the change before the event and R125 lets it take effect at
the end of the handling, and the model's choice is R121's order (log 27). -/
def State.takeNumber (s : State) (p : TrunkPort) (o : EnumOffer) : State :=
  (({ s with numbering := .numbered o.next p } : State).raiseEvent .numberTaken (some (portOf p))
    (some (o.next.setWidth 16))).passOn p o.next o.force o.run

/-- A valid ENUM handled (R121): takes the number, full line, passes the run on, or misdirected. -/
def State.handleOffer (s : State) (p : TrunkPort) (o : EnumOffer) : State :=
  match s.numbering, o.force with
  | .numbered own up, false =>
    if p = up then s.passOn p own false o.run else s.raiseTrunk p .enumMisdirected
  | _, _ => if o.next = 255 then s.sendEnumEnd p 254 .full o.run else s.takeNumber p o

/-- The decision on a held ENUM; one whose payload is not valid is discarded (R119). -/
def State.handleEnum (s : State) (r : Nat) : State :=
  match arrivalPort (s.record r).source, enumOffer (s.payload r) with
  | some p, some o => s.handleOffer p o
  | _, _ => s

/-- The held ENUM handled next, and a state whose free choice is used up where more than one is held: any of them may be
taken first (R129, log 3). -/
def State.pickEnum (s : State) : Option (Nat × State) :=
  match s.enums with
  | [] => none
  | [r] => some (r, s)
  | r :: rest => some ((r :: rest).getD (Config.pick s.choices % (rest.length + 1)) r, { s with choices := s.choices + 1 })

/-- A held ENUM handled in one event (R121): at its end N drops its reference. -/
def State.enumHandling (s : State) : State :=
  match s.pickEnum with
  | none => s
  | some (r, s1) => (({ s1 with enums := s1.enums.erase r } : State).handleEnum r).dropRef r

/-- ENUM_HANDLING (R121). -/
def execEnumHandling (s : State) : Outcome := .next s.enumHandling

end Sys2Proof.Machine
end

