-- ==== Sys2Proof/Machine/Reception.lean ====
section
/-! DEFINITION. The receiver of a trunk port (R44 to R62) and the symbols it takes: SOF_RECEIVED, DATA_BYTE_RECEIVED,
EOF_RECEIVED, CODE_ERROR_RECEIVED, ACK_RECEIVED, NAK_RECEIVED, HELLO_RECEIVED, IDLE_RECEIVED. -/

namespace Sys2Proof.Machine

/-- The ingress source and backlog of a trunk port's receiver. -/
def trunkSource (p : TrunkPort) : Source := sourceOf (portOf p)

/-- A frame in progress at its SOF (R46). Its Seq and Length are copied from the header once that has passed its check (R44);
until then the spec gives them no value and nothing reads them, and the model holds both at 0: DESIGN CHOICE (log 25). -/
def RxFrame.start : RxFrame :=
  { header := [], seq := 0, length := 0, frame := none, refused := false, after := 0, damaged := false, check := 0
    checkBytes := [] }

/-- The receiver in another reception state. -/
def State.setReception (s : State) (p : TrunkPort) (x : Reception) : State :=
  s.onRx p (fun r => { r with reception := x })

/-- An answer made (R59): appended to the pending answers. -/
def State.answer (s : State) (p : TrunkPort) (a : Answer) : State :=
  s.onRx p (fun r => { r with answers := r.answers ++ [a] })

/-- A HEADER_BAD frame (R47, R48): no answer, "header errors" raised, WAIT_SOF. -/
def State.headerBad (s : State) (p : TrunkPort) : State :=
  (s.setReception p .waitSof).raiseTrunk p .headerErrors

/-- A CHECK_FAILED frame (R51 to R54): NAK(seq, CHECK), the record abandoned, "check failures" raised, WAIT_SOF. -/
def State.checkFailed (s : State) (p : TrunkPort) (f : RxFrame) : State :=
  (((s.setReception p .waitSof).answer p (.nak f.seq .check)).abandon f.frame).raiseTrunk p .checkFailures

/-- A SOF taken (R46, R47, R53). -/
def State.takeSof (s : State) (p : TrunkPort) : State :=
  match (s.trunk p).rx.reception with
  | .waitSof => s.setReception p (.header .start)
  | .header _ => (s.headerBad p).setReception p (.header .start)
  | .payload f => (s.checkFailed p f).setReception p (.header .start)
  | .check f => (s.checkFailed p f).setReception p (.header .start)

/-- The reception state of a frame whose header has passed: CHECK at once where Length is 0 (R48, R50). -/
def bodyState (f : RxFrame) : Reception := if f.length = 0 then .check f else .payload f

/-- The tenth header byte taken (R48, R49): HEADER_BAD, refused for a pending reset or for want of room, or admitted with
its header written. -/
def State.judgeHeader (s : State) (p : TrunkPort) (f : RxFrame) : State :=
  let h := parseHeader f.header
  let g := { f with seq := h.seq, length := h.length.toNat }
  if Machine.headerBad f.header then s.headerBad p
  else if s.resetPending then s.setReception p (bodyState { g with refused := true })
  else
    match s.askRoom (trunkSource p) h.length.toNat with
    | .granted r s1 => (s1.fill r 0 f.header).setReception p (bodyState { g with frame := some r })
    | .refused _ => s.setReception p (bodyState { g with refused := true })

/-- A byte written into a record, where there is one. -/
def State.writeBody (s : State) (r : Option Nat) (i : Nat) (b : Byte) : State :=
  match r with
  | some n => s.writeFrameByte n i b
  | none => s

/-- A data byte taken (R46, R47, R50, R51). -/
def State.takeData (s : State) (p : TrunkPort) (b : Byte) : State :=
  match (s.trunk p).rx.reception with
  | .waitSof => s
  | .header f =>
    let g := { f with header := f.header ++ [b], check := frameCheckNext f.check b }
    if g.header.length < 10 then s.setReception p (.header g) else s.judgeHeader p g
  | .payload f =>
    let g := { f with after := f.after + 1, check := frameCheckNext f.check b }
    (s.writeBody f.frame (10 + f.after) b).setReception p (if g.after < g.length then .payload g else .check g)
  | .check f =>
    if f.checkBytes.length < 4 then
      s.setReception p (.check { f with after := f.after + 1, checkBytes := f.checkBytes ++ [b] })
    else s.checkFailed p f

/-- Whether a frame's four check bytes equal its running check, high byte first (R54, R100). -/
def RxFrame.checkGood (f : RxFrame) : Bool := !f.damaged && decide (f.checkBytes = beBytes 4 f.check.toNat)

/-- A STORED frame (R55). -/
def State.storeFrame (s : State) (p : TrunkPort) (f : RxFrame) (r : Nat) : State :=
  let s1 := s.setRecord r { s.record r with state := .waiting, refs := 0 }
  let s2 := s1.setBacklog (portOf p) (s1.backlog (portOf p) ++ [r])
  ((s2.onRx p (fun x => { x with reception := .waitSof, lastSeq := some f.seq })).answer p (.ack f.seq)).raiseTrunk p
    .framesStored

/-- The disposition at an EOF after the four frame check bytes (R54 to R57), the first case that holds. -/
def State.dispose (s : State) (p : TrunkPort) (f : RxFrame) : State :=
  if !f.checkGood then s.checkFailed p f
  else if (s.trunk p).rx.lastSeq = some f.seq then
    (((s.setReception p .waitSof).answer p (.ack f.seq)).abandon f.frame).raiseTrunk p .duplicates
  else
    match f.refused, f.frame with
    | false, some r => s.storeFrame p f r
    | _, _ => ((s.setReception p .waitSof).answer p (.nak f.seq .busy)).raiseTrunk p .busyRefusals

/-- An EOF taken (R46, R47, R52, R54). -/
def State.takeEof (s : State) (p : TrunkPort) : State :=
  match (s.trunk p).rx.reception with
  | .waitSof => s
  | .header _ => s.headerBad p
  | .payload f => s.checkFailed p f
  | .check f => if f.checkBytes.length < 4 then s.checkFailed p f else s.dispose p f

/-- A code error taken (R46, R47, R50). -/
def State.takeError (s : State) (p : TrunkPort) : State :=
  match (s.trunk p).rx.reception with
  | .waitSof => s
  | .header _ => s.headerBad p
  | .payload f => s.setReception p (.payload { f with damaged := true })
  | .check f => s.setReception p (.check { f with damaged := true })

/-- A HELLO taken (R58). -/
def State.takeHello (s : State) (p : TrunkPort) : State := s.onRx p (fun x => { x with lastSeq := none })

/-- SOF_RECEIVED (R46). -/
def execSofReceived (p : TrunkPort) (s : State) : Outcome := .next (s.hear p (fun t => t.takeSof p)).settle

/-- DATA_BYTE_RECEIVED (R50). -/
def execDataByteReceived (p : TrunkPort) (byte : Byte) (s : State) : Outcome :=
  .next (s.hear p (fun t => t.takeData p byte)).settle

/-- EOF_RECEIVED (R54). -/
def execEofReceived (p : TrunkPort) (s : State) : Outcome := .next (s.hear p (fun t => t.takeEof p)).settle

/-- CODE_ERROR_RECEIVED (R50). -/
def execCodeErrorReceived (p : TrunkPort) (s : State) : Outcome := .next (s.hearError p (fun t => t.takeError p))

/-- ACK_RECEIVED (R71): handed by the receiver to the transmitter in any reception state (R45). -/
def execAckReceived (p : TrunkPort) (seq : LinkSeq) (s : State) : Outcome :=
  .next (s.hear p (fun t => t.takeAck p seq)).settle

/-- NAK_RECEIVED (R72). -/
def execNakReceived (p : TrunkPort) (seq : LinkSeq) (reason : NakReason) (s : State) : Outcome :=
  .next (s.hear p (fun t => t.takeNak p seq reason)).settle

/-- HELLO_RECEIVED (R58). -/
def execHelloReceived (p : TrunkPort) (s : State) : Outcome := .next (s.hear p (fun t => t.takeHello p)).settle

/-- IDLE_RECEIVED (R45): no effect on reception. -/
def execIdleReceived (p : TrunkPort) (s : State) : Outcome := .next (s.hear p (fun t => t)).settle

end Sys2Proof.Machine
end

