-- ==== Sys2Proof/Machine/Session.lean ====
section
/-! DEFINITION. The edit session controller (R130 to R146): READ_STEER, WRITE_STEER, READ_CHMAP, WRITE_CHMAP, OPEN_EDIT,
CLOSE_EDIT, SYNC, COMMIT, COMMIT_COMPLETE, EDIT_STATUS, SESSION_TIMER_EXPIRY, SYNC_COPY_STEP. -/

namespace Sys2Proof.Machine

/-- The session closed (R131, R134, R135, R141): owner none, timer stopped, no swap requested; the cursor is kept. -/
def Session.close (x : Session) : Session :=
  { x with state := .closed, owner := none, timer := none, swapRequested := false, swapTaken := false }

/-- The state with the session closed. -/
def State.closeSession (s : State) : State := { s with session := s.session.close }

/-- A bank by its code, ACTIVE 0 or SHADOW 1 (R103, R139). -/
def State.bankOf (s : State) (code : Byte) : Option Bank :=
  match code.toNat with
  | 0 => some s.activeBank
  | 1 => some s.shadowBank
  | _ => none

/-- The checks READ_STEER and READ_CHMAP share (R139): bank code, count, range, BUSY for the shadow during a copy. -/
def readBank (c : Call) (s : State) (maxCount top : Nat) (record : Bank → Nat → List Byte) : Verdict :=
  let index := (c.arg 1).toNat
  let count := (c.arg 2).toNat
  match s.bankOf (c.arg 0) with
  | none => .fail .badValue
  | some b =>
    if count = 0 ∨ maxCount < count then .fail .badValue
    else if top < index + count - 1 then .fail .badIndex
    else if c.arg 0 = 1 ∧ s.session.state = .syncing then .fail .busy
    else reads ((List.range count).flatMap (fun i => record b (index + i))) s

/-- READ_STEER's checks and data (R139). -/
def bodyReadSteer (c : Call) (s : State) : Verdict := readBank c s 8 255 (fun b i => encodeEntry (b.entry i))

/-- READ_CHMAP's checks and data (R139). -/
def bodyReadChmap (c : Call) (s : State) : Verdict := readBank c s 16 63 (fun b i => [encodeMapEntry (b.mapEntry i)])

/-- WRITE_STEER's checks and effect (R136, R137). Its index has 8 bits, so BAD_INDEX is met by no command. -/
def bodyWriteSteer (c : Call) (s : State) : Verdict :=
  match s.sessionCheck c.requester true with
  | some r => .fail r
  | none =>
    match decodeEntry (c.args.drop 1) with
    | none => .fail .badValue
    | some e => done (s.setShadow (s.shadowBank.setEntry (c.arg 0).toNat e))

/-- WRITE_CHMAP's checks and effect (R136, R138). -/
def bodyWriteChmap (c : Call) (s : State) : Verdict :=
  match s.sessionCheck c.requester true with
  | some r => .fail r
  | none =>
    if 63 < (c.arg 0).toNat then .fail .badIndex
    else done (s.setShadow (s.shadowBank.setMapEntry (c.arg 0).toNat (decodeMapEntry (c.arg 1))))

/-- OPEN_EDIT's checks and effect (R132). -/
def bodyOpenEdit (c : Call) (s : State) : Verdict :=
  match s.session.state with
  | .closed =>
    done { s with
      session := { s.session with state := .opened, owner := some c.requester, timer := some s.params.editTimeout } }
  | _ => if s.session.owner = some c.requester then done s else .fail .locked

/-- CLOSE_EDIT's checks and effect (R135, R136). -/
def bodyCloseEdit (c : Call) (s : State) : Verdict :=
  match s.sessionCheck c.requester false with
  | some r => .fail r
  | none => done s.closeSession

/-- SYNC's checks and effect (R136, R140). -/
def bodySync (c : Call) (s : State) : Verdict :=
  match s.sessionCheck c.requester true with
  | some r => .fail r
  | none => done { s with session := { s.session with state := .syncing, cursor := 0 } }

/-- COMMIT's checks and the first part of its effect (R136, R141): the timer is stopped and the swap requested. Its data,
the generation after the swap, is known in length only. -/
def bodyCommit (c : Call) (s : State) : Verdict :=
  match s.sessionCheck c.requester true with
  | some r => .fail r
  | none =>
    .pass (halfBytes (s.steer.generation + 1)) none
      { s with session := { s.session with timer := none, swapRequested := true, swapTaken := false } }

/-- EDIT_STATUS's data (R103, R143). -/
def bodyEditStatus (_ : Call) (s : State) : Verdict :=
  reads ([sessionCode s.session.state, if s.session.state = .closed then 0 else s.session.owner.getD 0] ++
    beBytes 2 s.session.cursor) s

/-- READ_STEER (R139). -/
def execReadSteer (s : State) : Outcome := .next (runCommand (hasCode 0x02) bodyReadSteer s)

/-- WRITE_STEER (R137). -/
def execWriteSteer (s : State) : Outcome := .next (runCommand (hasCode 0x03) bodyWriteSteer s)

/-- READ_CHMAP (R139). -/
def execReadChmap (s : State) : Outcome := .next (runCommand (hasCode 0x04) bodyReadChmap s)

/-- WRITE_CHMAP (R138). -/
def execWriteChmap (s : State) : Outcome := .next (runCommand (hasCode 0x05) bodyWriteChmap s)

/-- OPEN_EDIT (R132). -/
def execOpenEdit (s : State) : Outcome := .next (runCommand (hasCode 0x06) bodyOpenEdit s)

/-- CLOSE_EDIT (R135). -/
def execCloseEdit (s : State) : Outcome := .next (runCommand (hasCode 0x07) bodyCloseEdit s)

/-- SYNC (R140). -/
def execSync (s : State) : Outcome := .next (runCommand (hasCode 0x08) bodySync s)

/-- COMMIT taken (R141): answered at once where a check fails; otherwise the request stays in execution at it. -/
def State.takeCommit (s : State) : State :=
  match s.current with
  | none => s
  | some (e, c, rest) =>
    if hasCode 0x09 c && !s.session.swapRequested then
      match verdictOf e c rest bodyCommit s with
      | .fail r => s.answerCmd e c rest r [] none
      | .pass _ _ s1 => s1
    else s

/-- COMMIT (R141). -/
def execCommit (s : State) : Outcome := .next s.takeCommit

/-- The COMMIT completes (R141): the session closes, SESSION_COMMITTED is raised, and the command is answered OK with the
generation after the swap. -/
def State.completeCommit (s : State) : State :=
  match s.current with
  | none => s
  | some (e, c, rest) =>
    if hasCode 0x09 c && s.session.swapRequested && s.session.swapTaken then
      (s.closeSession.raiseEvent .sessionCommitted none (some s.steer.generation)).answerCmd e c rest .ok
        (halfBytes s.steer.generation) none
    else s

/-- COMMIT_COMPLETE (R141). -/
def execCommitComplete (s : State) : Outcome := .next s.completeCommit

/-- EDIT_STATUS (R143). -/
def execEditStatus (s : State) : Outcome := .next (runCommand (hasCode 0x0A) bodyEditStatus s)

/-- SESSION_TIMER_EXPIRY (R134): taken while the timer runs. -/
def execSessionTimerExpiry (s : State) : Outcome :=
  if s.session.state ≠ .closed ∧ s.session.timer.isSome then .next (s.closeSession.raiseEvent .sessionExpired none none)
  else .next s

/-- One copy step (R140): the entry at the cursor copied whole from the active bank, the cursor raised, OPEN at 320. -/
def State.copyStep (s : State) : State :=
  let n := s.session.cursor
  let b :=
    if n < 256 then s.shadowBank.setEntry n (s.activeBank.entry n)
    else s.shadowBank.setMapEntry (n - 256) (s.activeBank.mapEntry (n - 256))
  let s1 := s.setShadow b
  { s1 with
    session := { s1.session with cursor := n + 1, state := if n + 1 < 320 then .syncing else .opened } }

/-- SYNC_COPY_STEP (R140): taken while a copy runs. -/
def execSyncCopyStep (s : State) : Outcome := if s.session.state = .syncing then .next s.copyStep else .next s

end Sys2Proof.Machine
end

