-- ==== Sys2Proof/Machine/Transmission.lean ====
section
/-! DEFINITION. The commands of a trunk port's sending side (R59, R68 to R76): ANSWER_SENT, TX_SELECT, COPY_EOF_SENT,
ACK_WAIT_EXPIRY, RETRY_WAIT_EXPIRY. Each is taken in the transmitter state whose event it is; elsewhere there is no such
event and nothing changes (log 4). -/

namespace Sys2Proof.Machine

/-- ANSWER_SENT (R59). -/
def execAnswerSent (p : TrunkPort) (s : State) : Outcome := .next (s.sendAnswer p)

/-- TX_SELECT (R68). -/
def execTxSelect (p : TrunkPort) (s : State) : Outcome :=
  if s.maySelect p then .next (s.select p ((s.trunk p).queues.entries.length + 1)).settle else .next s

/-- COPY_EOF_SENT (R70). -/
def execCopyEofSent (p : TrunkPort) (s : State) : Outcome :=
  if (s.tx p).state = .sending then .next (s.endCopy p).settle else .next s

/-- ACK_WAIT_EXPIRY (R72). -/
def execAckWaitExpiry (p : TrunkPort) (s : State) : Outcome :=
  if (s.tx p).state = .awaitingAck ∧ (s.tx p).timer.isSome then .next (s.failAttempt p).settle else .next s

/-- RETRY_WAIT_EXPIRY (R75). -/
def execRetryWaitExpiry (p : TrunkPort) (s : State) : Outcome :=
  if (s.tx p).state = .retryWait ∧ (s.tx p).timer.isSome then .next (s.retransmit p).settle else .next s

end Sys2Proof.Machine
end

