-- ==== Sys2Proof/Machine/Dispatch.lean ====
section
/-! DEFINITION. The dispatch: one arm per command of the opcode table, each one call of its meaning. -/

namespace Sys2Proof.Machine

def exec (i : Instr) (s : State) : Host.Outcome State Fault Refusal :=
  match i with
  | .powerOnReset => Sys2Proof.Machine.execPowerOnReset s
  | .sofReceived p => Sys2Proof.Machine.execSofReceived p s
  | .dataByteReceived p byte => Sys2Proof.Machine.execDataByteReceived p byte s
  | .eofReceived p => Sys2Proof.Machine.execEofReceived p s
  | .codeErrorReceived p => Sys2Proof.Machine.execCodeErrorReceived p s
  | .ackReceived p seq => Sys2Proof.Machine.execAckReceived p seq s
  | .nakReceived p seq reason => Sys2Proof.Machine.execNakReceived p seq reason s
  | .helloReceived p => Sys2Proof.Machine.execHelloReceived p s
  | .idleReceived p => Sys2Proof.Machine.execIdleReceived p s
  | .silenceTimeout p => Sys2Proof.Machine.execSilenceTimeout p s
  | .answerSent p => Sys2Proof.Machine.execAnswerSent p s
  | .lookup => Sys2Proof.Machine.execLookup s
  | .bankSwap => Sys2Proof.Machine.execBankSwap s
  | .commitComplete => Sys2Proof.Machine.execCommitComplete s
  | .meterTick => Sys2Proof.Machine.execMeterTick s
  | .txSelect p => Sys2Proof.Machine.execTxSelect p s
  | .copyEofSent p => Sys2Proof.Machine.execCopyEofSent p s
  | .ackWaitExpiry p => Sys2Proof.Machine.execAckWaitExpiry p s
  | .retryWaitExpiry p => Sys2Proof.Machine.execRetryWaitExpiry p s
  | .enumHandling => Sys2Proof.Machine.execEnumHandling s
  | .sessionTimerExpiry => Sys2Proof.Machine.execSessionTimerExpiry s
  | .syncCopyStep => Sys2Proof.Machine.execSyncCopyStep s
  | .requestStart => Sys2Proof.Machine.execRequestStart s
  | .info => Sys2Proof.Machine.execInfo s
  | .readSteer => Sys2Proof.Machine.execReadSteer s
  | .writeSteer => Sys2Proof.Machine.execWriteSteer s
  | .readChmap => Sys2Proof.Machine.execReadChmap s
  | .writeChmap => Sys2Proof.Machine.execWriteChmap s
  | .openEdit => Sys2Proof.Machine.execOpenEdit s
  | .closeEdit => Sys2Proof.Machine.execCloseEdit s
  | .sync => Sys2Proof.Machine.execSync s
  | .commit => Sys2Proof.Machine.execCommit s
  | .editStatus => Sys2Proof.Machine.execEditStatus s
  | .readMeter => Sys2Proof.Machine.execReadMeter s
  | .writeMeter => Sys2Proof.Machine.execWriteMeter s
  | .readCounters => Sys2Proof.Machine.execReadCounters s
  | .readCountersClear => Sys2Proof.Machine.execReadCountersClear s
  | .readParam => Sys2Proof.Machine.execReadParam s
  | .writeParam => Sys2Proof.Machine.execWriteParam s
  | .portEnableWrite => Sys2Proof.Machine.execPortEnableWrite s
  | .attentionMaskWrite => Sys2Proof.Machine.execAttentionMaskWrite s
  | .releasePortRetry => Sys2Proof.Machine.execReleasePortRetry s
  | .releasePortDrop => Sys2Proof.Machine.execReleasePortDrop s
  | .releasePortFlush => Sys2Proof.Machine.execReleasePortFlush s
  | .readEvents => Sys2Proof.Machine.execReadEvents s
  | .resetNode => Sys2Proof.Machine.execResetNode s
  | .responseHandover => Sys2Proof.Machine.execResponseHandover s
  | .resetLimitExpiry => Sys2Proof.Machine.execResetLimitExpiry s
  | .localIngressByte byte last => Sys2Proof.Machine.execLocalIngressByte byte last s
  | .localAdmissionRetry => Sys2Proof.Machine.execLocalAdmissionRetry s
  | .localEgressSelect => Sys2Proof.Machine.execLocalEgressSelect s
  | .localEgressByte => Sys2Proof.Machine.execLocalEgressByte s

end Sys2Proof.Machine
end

