-- ==== Sys2Proof/Safety.lean ====
section
/-! DEFINITION. What a sound state and a safe step are, in the terms the claims use. Each predicate is one promise the
spec makes about the whole node; none is assumed by a meaning. -/

namespace Sys2Proof.Machine

/-- A safe outcome: the node goes on. The spec gives it no state in which it stops. -/
def Outcome.isNext : Outcome → Bool
  | .next _ => true
  | _ => false

/-- Every table kept as a sparse list, and the pages' bytes, are in canonical form. -/
def State.canonical (s : State) : Bool :=
  Memory.wf s.store.mem && Sparse.wf FrameRecord.blank s.store.recs &&
    Sparse.wf SteerEntry.blank s.steer.bank0.table && Sparse.wf MapEntry.blank s.steer.bank0.map &&
    Sparse.wf SteerEntry.blank s.steer.bank1.table && Sparse.wf MapEntry.blank s.steer.bank1.map &&
    Sparse.wf Meter.blank s.meters && Sparse.wf EntryCounter.blank s.counters

/-- The level of no meter exceeds its burst (R106). -/
def State.metersSound (s : State) : Bool := s.meters.all (fun e => decide (e.2.level ≤ e.2.burst))

/-- The bank a generation makes active (R130). -/
def bankOfGeneration (g : Half) : BankName := if g.getLsbD 0 then .bank1 else .bank0

/-- The selector equals the generation's parity (R130). -/
def State.banksSound (s : State) : Bool := decide (s.steer.selector = bankOfGeneration s.steer.generation)

/-- Whether the request in execution stands at a COMMIT of a station. -/
def State.atCommit (s : State) (owner : Option Station) : Bool :=
  match s.current with
  | some (e, c, _) => hasCode 0x09 c && decide (owner = some e.requester)
  | none => false

/-- The edit session (R131, R141): a CLOSED session has no owner, no timer and no swap requested; an open one has an
owner; while a swap is requested the session is OPEN, the timer is stopped and the owner's COMMIT is in execution; a
swap taken was requested. -/
def State.sessionSound (s : State) : Bool :=
  let x := s.session
  (match x.state with
    | .closed => x.owner.isNone && x.timer.isNone && !x.swapRequested
    | _ => x.owner.isSome) &&
  (!x.swapRequested || (decide (x.state = .opened) && x.timer.isNone && s.atCommit x.owner)) &&
  (!x.swapTaken || x.swapRequested)

/-- Sequence numbers consecutive from a first number on (R170). -/
def consecutive : Half → List EventRecord → Bool
  | _, [] => true
  | n, e :: t => decide (e.seq = n) && consecutive (n + 1) t

/-- The event queue (R170, R173, R174): at most 32 records, numbered consecutively up to the next number; the
notice-outstanding flag only while a record is held; ATTENTION as the mask selects. -/
def State.eventsSound (s : State) : Bool :=
  decide (s.events.records.length ≤ 32) &&
    consecutive (s.events.nextSeq - BitVec.ofNat 16 s.events.records.length) s.events.records &&
    (!s.events.noticeOutstanding || !s.events.records.isEmpty) &&
    decide (s.events.attention = attentionOf s.params.attentionMask s.events.records)

/-- M holds at most four requests (R147). -/
def State.requestsSound (s : State) : Bool := decide (s.mgmt.queue.length ≤ 4)

/-- The response cache holds at most eight entries, at most one per requester (R158). -/
def State.cacheSound (s : State) : Bool :=
  decide (s.mgmt.cache.length ≤ 8) && decide (s.mgmt.cache.map CacheEntry.requester).Nodup

/-- While NUMBERED, the own station is 1 to 254 (R118). -/
def State.numberingSound (s : State) : Bool :=
  match s.numbering with
  | .unnumbered => true
  | .numbered own _ => decide (1 ≤ own.toNat ∧ own.toNat ≤ 254)

/-- A transmitter (R66): in every state but IDLE a frame is in flight; the timer runs exactly in AWAITING_ACK and
RETRY_WAIT; Acknowledged is set only while SENDING; with no frame in flight Sent is no and the attempt count 0. -/
def Transmitter.sound (t : Transmitter) : Bool :=
  (decide (t.state = .idle) || t.inFlight.isSome) &&
    decide (t.timer.isSome = (decide (t.state = .awaitingAck) || decide (t.state = .retryWait))) &&
    (!t.acked || decide (t.state = .sending)) &&
    (t.inFlight.isSome || (!t.sent && decide (t.attempts = 0)))

/-- Both transmitters. -/
def State.transmittersSound (s : State) : Bool := s.trunkA.tx.sound && s.trunkB.tx.sound

/-- A frame in progress past its header (R44): a record exactly where it is not refused, and all ten header bytes. -/
def RxFrame.admitted (f : RxFrame) : Bool :=
  decide (f.header.length = 10) && decide (f.frame.isSome = !f.refused)

/-- A reception (R44, R47, R50): fewer than ten header bytes in HEADER, payload missing in PAYLOAD, at most four check
bytes in CHECK, each byte after the header counted once. -/
def Reception.sound : Reception → Bool
  | .waitSof => true
  | .header f =>
    decide (f.header.length < 10) && f.frame.isNone && !f.refused && decide (f.after = 0) && f.checkBytes.isEmpty
  | .payload f => f.admitted && decide (f.after < f.length) && f.checkBytes.isEmpty
  | .check f => f.admitted && decide (f.after = f.length + f.checkBytes.length) && decide (f.checkBytes.length ≤ 4)

/-- Both receivers. -/
def State.receiversSound (s : State) : Bool := s.trunkA.rx.reception.sound && s.trunkB.rx.reception.sound

/-- A link monitor (R94, R95): the run count is at most 64, and below 64 while the link is DOWN. -/
def Link.sound (l : Link) : Bool := decide (l.run ≤ runLength) && (l.up || decide (l.run < runLength))

/-- Both link monitors (R94, R97): a disabled port's link is DOWN and its silence timer stopped; an enabled port's timer
runs. -/
def State.linksSound (s : State) : Bool :=
  s.trunkA.link.sound && s.trunkB.link.sound &&
    decide (s.trunkA.link.silence = s.params.portEnableA) && decide (s.trunkB.link.silence = s.params.portEnableB) &&
    (!s.trunkA.link.up || s.params.portEnableA) && (!s.trunkB.link.up || s.params.portEnableB)

/-- Every promise above at once. -/
def State.sound (s : State) : Bool :=
  s.canonical && s.metersSound && s.banksSound && s.sessionSound && s.eventsSound && s.requestsSound && s.cacheSound &&
    s.numberingSound && s.transmittersSound && s.receiversSound && s.linksSound

/-! ### Situations the claims name -/

/-- The request in execution stands at a command, others after it (R148, R150). -/
def State.standsAt (s : State) (e : Execution) (c : Cmd) (rest : List Cmd) : Prop :=
  s.mgmt.executor = .executing e ∧ e.todo = c :: rest

/-- A command has a code and the fixed argument length of that code, the first check of R150. -/
def Cmd.formed (c : Cmd) (code : Byte) : Prop := c.code = code ∧ argLength code = some c.args.length

/-- The command stood at has a code, the fixed argument length of that code, and room for `n` data bytes in the response
(R150, R151). -/
def Execution.admits (e : Execution) (c : Cmd) (code : Byte) (n : Nat) : Prop :=
  c.code = code ∧ argLength code = some c.args.length ∧ e.used + n ≤ 1024

/-- A port that takes a valid symbol with no more than its run counted: it is enabled, and the symbol is not the 64th of a
run (R95, R97). -/
def State.hearsPlainly (s : State) (p : TrunkPort) : Prop :=
  s.enabled p = true ∧ ((s.trunk p).link.up = true ∨ (s.trunk p).link.run + 1 < runLength)

/-- The frame of a record fails the residence check now (R69). -/
def State.stale (s : State) (r : Nat) : Prop :=
  s.params.residenceLimit ≠ 0 ∧ s.params.residenceLimit < (s.nodeTime - (s.record r).arrival).toNat

/-- A pending reset watches the response of a record on a port (R163). -/
def State.watches (s : State) (y : Port) (r : Nat) : Bool :=
  match s.mgmt.executor with
  | .resetPending x => decide (x.watched = some (y, r))
  | _ => false

/-- The management engine with a reset of a scope pending and no response watched any more (R164). -/
def State.unwatched (s : State) (scope : ResetScope) : Mgmt :=
  { s.mgmt with executor := .resetPending { scope := scope, watched := none } }

/-- A statistic raised `n` times (R114). -/
def raisedBy (x : Half) (n : Nat) : Half := BitVec.ofNat 16 (min 65535 (x.toNat + n))

/-- A store whose next release raises no STORE_LOW (R41): its watermark is LOW, or 34 pages are free. -/
def State.roomy (s : State) : Prop := s.store.watermark = .low ∨ Config.reserve ≤ s.store.freePages.length

/-- An admission of source I of `n` pages is granted, handing out record `r`, and raises no STORE_LOW (R32, R41). -/
def State.givesRoom (s : State) (r n : Nat) : Prop :=
  (∃ free, s.store.freeRecs = r :: free) ∧ n ≤ s.store.freePages.length ∧ s.store.held.get .i + n ≤ s.quota .i ∧
    (s.store.watermark = .low ∨ n + Config.reserve ≤ s.store.freePages.length)

/-- An admission of source I of `n` pages is refused (R32). -/
def State.lacksRoom (s : State) (n : Nat) : Prop :=
  s.store.freeRecs = [] ∨ s.store.freePages.length < n ∨ s.quota .i < s.store.held.get .i + n

/-- The cyclic order the arbiter looks in, after the last source served (R5). -/
def servingOrder : Port → List Port
  | .a => [.b, .l, .a]
  | .b => [.l, .a, .b]
  | .l => [.a, .b, .l]

/-- The next lookup is taken on record `r`, the head of backlog `q`, with `rest` behind it (R5). -/
def State.nextLookup (s : State) (q : Port) (r : Nat) (rest : List Nat) : Prop :=
  (servingOrder s.steer.lastServed).find? (fun x => !(s.backlog x).isEmpty) = some q ∧ s.backlog q = r :: rest

/-- The kinds steered by the tables (R6). -/
def FrameKind.ordinary : FrameKind → Bool
  | .data => true
  | .mreq => true
  | .mrsp => true
  | .notice => true
  | .enum => false
  | .enumEnd => false

/-- A full reset is pending (R163). -/
def State.fullResetPending (s : State) : Bool :=
  match s.mgmt.executor with
  | .resetPending r => decide (r.scope = .full)
  | _ => false

/-- Every page is free or held by a record that is not free, once (R26, R39). -/
def State.pagesBalanced (s : State) : Prop :=
  (s.store.freePages ++
      ((List.range Config.recordCount).filter (fun r => !s.store.freeRecs.contains r)).flatMap
        (fun r => (s.record r).pages)).Perm
    (List.range Config.pageCount)

/-- The records that are not free (R28). -/
def State.usedRecords (s : State) : List Nat :=
  (List.range Config.recordCount).filter (fun r => !s.store.freeRecs.contains r)

/-- How often a record is held (R29): by entries of the twelve queues, in M, by N, by cached responses. -/
def State.holders (s : State) (r : Nat) : Nat :=
  (((s.queues .a).entries ++ (s.queues .b).entries ++ (s.queues .l).entries).map Entry.frame).count r +
    (s.mgmt.queue.map Request.frame).count r + s.enums.count r + (s.mgmt.cache.map CacheEntry.frame).count r

/-- The records being filled by the two receivers and by local ingress (R35). -/
def State.filling (s : State) : List Nat :=
  s.trunkA.rx.reception.record?.toList ++ s.trunkB.rx.reception.record?.toList ++ s.loc.ingress.record?.toList

/-- The records on the three steering backlogs (R4). -/
def State.backlogged (s : State) : List Nat := s.steer.backlogA ++ s.steer.backlogB ++ s.steer.backlogL

/-- The books of the frame store. -/
structure State.StoreSound (s : State) : Prop where
  /-- Every page is free or held by one record that is not free, once (R26, R39). -/
  pages : s.pagesBalanced
  /-- No record number is free twice (R39), and there are 256 of them (R26). -/
  free : s.store.freeRecs.Nodup ∧ ∀ r ∈ s.store.freeRecs, r < Config.recordCount
  /-- The held pages of a source are the pages of its records (R40). -/
  held : ∀ src, s.store.held.get src =
    ((s.usedRecords.filter (fun r => (s.record r).source = src)).map (fun r => (s.record r).pages.length)).sum
  /-- A record holds the pages its stored size needs (R26). -/
  size : ∀ r ∈ s.usedRecords, (s.record r).pages.length = ((s.record r).size + 63) / 64
  /-- The reference count is the number of holders (R29). -/
  refs : ∀ r ∈ s.usedRecords, (s.record r).refs = s.holders r
  /-- A record that is not free is being filled by one block, or on one backlog, or held, and only one of the three (R28). -/
  placed : ∀ r ∈ s.usedRecords,
    s.filling.count r + s.backlogged.count r + (if s.holders r = 0 then 0 else 1) = 1
  /-- Its state says which: FILLING, QUEUED on an egress queue, else WAITING (R28). -/
  state : ∀ r ∈ s.usedRecords, (s.record r).state =
    if r ∈ s.filling then .filling else if s.isQueued r then .queued else .waiting
  /-- A record that is free is held nowhere (R28, R38). -/
  unheld : ∀ r, r ∉ s.usedRecords → s.holders r = 0 ∧ r ∉ s.filling ∧ r ∉ s.backlogged
  /-- A record appears at most once among the four queues of one port (R22, R63). -/
  single : ∀ q : Port, ((s.queues q).entries.map Entry.frame).Nodup
  /-- A frame in flight is an entry of its port's queues (R66, R71). -/
  flight : ∀ p e, (s.tx p).inFlight = some e → e ∈ (s.trunk p).queues.entries
  /-- The entry of a local transfer is in the L queues (R181). -/
  transfer : ∀ e k, s.loc.egress = .transfer e k → e ∈ s.loc.queues.entries

/-! ### Effects the claims name -/

/-- `t` is `s` but for a record given back (R38): its pages and its number are at the tails of the free lists and its source's
held pages are lowered by them. Beside that only the watermark (R41) and the releases announced to local ingress (R34) may
differ, the latter only in WAIT_ROOM. With no record, `t` is `s`. -/
def State.gaveBack (s : State) (record : Option Nat) (t : State) : Prop :=
  match record with
  | none => t = s
  | some r =>
    t =
      { s with
        store :=
          { s.store with
            freePages := s.store.freePages ++ (s.record r).pages, freeRecs := s.store.freeRecs ++ [r]
            held := s.store.held.on (· - (s.record r).pages.length) (s.record r).source
            watermark := t.store.watermark }
        loc := { s.loc with ingress := t.loc.ingress } } ∧
    ((∀ h n, s.loc.ingress ≠ .waitRoom h n) → t.loc.ingress = s.loc.ingress)

/-- `t` is `s`, right after an admission or a release, with its watermark examined, row by row of R41. -/
def State.watermarkMoved (s t : State) : Prop :=
  (s.store.watermark = .armed → s.store.freePages.length < 34 →
    t = State.raiseEvent { s with store := { s.store with watermark := .low } } .storeLow none none) ∧
  (s.store.watermark = .armed → 34 ≤ s.store.freePages.length → t = s) ∧
  (s.store.watermark = .low → 51 ≤ s.store.freePages.length → t = { s with store := { s.store with watermark := .armed } }) ∧
  (s.store.watermark = .low → s.store.freePages.length < 51 → t = s)

/-- A transmitter that its frame in flight has left (R71, R78, R82, R86, R89): IDLE, and TxSeq advanced over a frame whose Sent
mark was yes (R67). -/
def Transmitter.vacated (x : Transmitter) : Transmitter :=
  { state := .idle, txSeq := if x.sent then x.txSeq + 1 else x.txSeq, attempts := 0, inFlight := none, sent := false
    acked := false, timer := none }

/-- The entries of a port's queues that a predicate selects, in their order. -/
def QueueSet.keep (x : QueueSet) (f : Entry → Bool) : QueueSet :=
  { c0 := x.c0.filter (fun r => f { cls := 0, frame := r }), c1 := x.c1.filter (fun r => f { cls := 1, frame := r })
    c2 := x.c2.filter (fun r => f { cls := 2, frame := r }), c3 := x.c3.filter (fun r => f { cls := 3, frame := r }) }

/-- A port's queues with one entry gone. -/
def QueueSet.without (x : QueueSet) (e : Entry) : QueueSet := x.set e.cls ((x.get e.cls).erase e.frame)

/-- A port's queues with a record at the tail of one class. -/
def QueueSet.push (x : QueueSet) (c : TrafficClass) (r : Nat) : QueueSet := x.set c (x.get c ++ [r])

/-- Between `s` and `t` the frame of record `r`, with the bytes given, joins the tail of class 0 of one trunk port with one
reference, and no other queue changes (R24). -/
def State.sendsOut (s t : State) (q : TrunkPort) (r : Nat) (bytes : List Byte) : Prop :=
  t.queues (portOf q) = (s.queues (portOf q)).push 0 r ∧ (∀ y, y ≠ portOf q → t.queues y = s.queues y) ∧
    t.frameBytes r = bytes ∧ (t.record r).refs = 1

/-- Whether the frame in flight of a transmitter leaves at a DOWN event: an acknowledged copy completes, and FLUSH removes a
suspended frame (R84, R86). -/
def Transmitter.leavesAtDown (x : Transmitter) (policy : LinkPolicy) : Bool :=
  x.inFlight.isSome && (decide (x.state = .sending) && x.acked || decide (policy = .flush) && decide (x.state ≠ .held))

/-- A transmitter after a DOWN event of its link (R84, R86): its frame has left, or it is unchanged in IDLE and HELD, or its
frame is suspended with Seq, Sent mark and attempt count kept. -/
def Transmitter.atDown (x : Transmitter) (policy : LinkPolicy) : Transmitter :=
  if x.leavesAtDown policy then x.vacated
  else if x.state = .idle ∨ x.state = .held then x
  else { x with state := .idle, timer := none }

/-- A port's queues after a DOWN event (R84, R86): under FLUSH the held head alone stays; under KEEP all stay but a frame whose
copy was acknowledged. -/
def QueueSet.atDown (q : QueueSet) (x : Transmitter) (policy : LinkPolicy) : QueueSet :=
  match policy, x.inFlight with
  | .keep, some e => if x.leavesAtDown .keep then q.without e else q
  | .keep, none => q
  | .flush, some e => q.keep (fun y => decide (x.state = .held ∧ y = e))
  | .flush, none => q.keep (fun _ => false)

/-- `t` is `s` after a DOWN event of port `p` (R84, R86, R94) in which the receiver becomes `rx` and the statistics `stats`:
LINK_DOWN is raised and one free choice used (log 3); a record in reception, and the entries that leave the queues, go back to
the store. Where none leaves the queues, nothing else of the store changes. -/
def State.wentDown (s : State) (p : TrunkPort) (silence : Bool) (rx : Receiver) (stats : TrunkStats) (t : State) : Prop :=
  let x := s.tx p
  let policy := s.params.linkDownPolicy
  let u :=
    State.raiseEvent
      (State.setTrunk { s with choices := s.choices + 1 } p
        { s.trunk p with
          link := { up := false, run := 0, silence := silence }, rx := rx, stats := stats, tx := x.atDown policy
          queues := (s.trunk p).queues.atDown x policy })
      .linkDown (some (portOf p)) none
  t = { u with store := t.store, loc := { u.loc with ingress := t.loc.ingress } } ∧ t.store.mem = s.store.mem ∧
    (policy = .keep → x.leavesAtDown .keep = false → u.gaveBack (s.trunk p).rx.reception.record? t)

/-- A local frame refused (R180): counted, LOCAL_REFUSED raised with its reason's code (R101), and local ingress in DISCARD
until the byte marked last has been taken. -/
def State.localRefused (s : State) (code : Half) (lastTaken : Bool) : State :=
  State.raiseEvent
    { s with
      loc :=
        { s.loc with
          ingress := if lastTaken then .idle else .discard
          stats := { s.loc.stats with localRefusals := satInc s.loc.stats.localRefusals } } }
    .localRefused (some .l) (some code)

/-! ### The decision of a lookup as the spec words it -/

/-- Whether the tests of an entry hold for a frame, the arrival port and orientation given (R10, R11). -/
def SteerEntry.holdsFor (e : SteerEntry) (from_ : Port) (up : TrunkPort) (k : FrameKind) (h : Header) : Prop :=
  e.valid = true ∧
  (match e.arrival with
    | .any => True
    | .a => from_ = .a
    | .b => from_ = .b
    | .upstream => from_ = portOf up
    | .downstream => from_ ≠ .l ∧ from_ ≠ portOf up
    | .localPort => from_ = .l) ∧
  (match k with
    | .data => e.kinds.data = true
    | .mreq => e.kinds.mreq = true
    | .mrsp => e.kinds.mrsp = true
    | .notice => e.kinds.notice = true
    | .enum => False
    | .enumEnd => False) ∧
  (∀ i, e.destMask.getLsbD i = true → h.dest.getLsbD i = e.destValue.getLsbD i) ∧
  (∀ i, e.srcMask.getLsbD i = true → h.source.getLsbD i = e.srcValue.getLsbD i) ∧
  (∀ i, e.chanMask.getLsbD i = true → h.channel.getLsbD i = e.chanValue.getLsbD i) ∧
  (∀ i, e.tagMask.getLsbD i = true → h.tag.getLsbD i = e.tagValue.getLsbD i) ∧
  (e.mark = .clear → h.mark = false) ∧ (e.mark = .set → h.mark = true)

/-- The delivery set of default steering, row by row of R14. -/
def defaultWords (k : FrameKind) (dest own : Station) : Delivery :=
  { Delivery.empty with
    mgmt := decide (k = .mreq) && (decide (dest = own) || decide (dest = 255))
    toLocal := decide (k ≠ .mreq) && (decide (dest = own) || decide (dest = 255))
    forward := decide (dest ≠ own) }

/-- The delivery set and the class, a DEMOTE apart, that the active bank decides for a frame with winner `w` (R13, R15). -/
def State.decides (s : State) (w : Option SteerEntry) (k : FrameKind) (h : Header) (own : Station) (d : Delivery)
    (c : TrafficClass) : Prop :=
  match w with
  | none => d = defaultWords k h.dest own ∧ c = h.cls
  | some e =>
    let m := s.activeBank.mapEntry h.channel.toNat
    (e.byChannel = false ∧ d = e.delivery ∧ c = e.classOverride.getD h.cls) ∨
    (e.byChannel = true ∧ m.defer = false ∧ d = m.delivery ∧ c = m.classOverride.getD (e.classOverride.getD h.cls)) ∨
    (e.byChannel = true ∧ m.defer = true ∧ d = defaultWords k h.dest own ∧ c = e.classOverride.getD h.cls)

/-- The exceed action met by a frame of `size` bytes with winner `w` (R19); none where it conforms, where its meter is disabled
and where it has none. -/
def State.exceeds (s : State) (w : Option SteerEntry) (size : Nat) : Option ExceedAction :=
  match w.bind SteerEntry.meter with
  | none => none
  | some i =>
    if (s.meter i.toNat).enabled ∧ (s.meter i.toNat).level < size then some (s.meter i.toNat).action else none

/-- The ports that FORWARD names for a frame (R16). -/
def forwardPorts (from_ : Port) (up : TrunkPort) (dest own : Station) : List Port :=
  match from_ with
  | .a => [.b]
  | .b => [.a]
  | .l =>
    if dest = own then [.l]
    else if dest = 255 then [.a, .b]
    else if dest.toNat < own.toNat then [portOf up]
    else [portOf (otherPort up)]

/-- Whether a delivery set names a port for a frame (R16). -/
def Delivery.names (d : Delivery) (from_ : Port) (up : TrunkPort) (dest own : Station) (q : Port) : Bool :=
  d.forward && (forwardPorts from_ up dest own).contains q || d.turn && decide (q = from_) ||
    d.toLocal && decide (q = .l)

/-- Whether M is a target: named by MGMT for an MREQ, or kept for a protected MREQ (R16, R17, R19). -/
def Delivery.namesMgmt (d : Delivery) (k : FrameKind) (h : Header) (own : Station) (dropped : Bool) : Bool :=
  decide (k = .mreq) && (d.mgmt && !dropped || (h.source != 255 && (h.dest == own || h.dest == 255)))

/-! ### The fixed statistics as R114 numbers them -/

/-- The statistics of a counter group by its code, in the order of their numbers (R103, R114). -/
def State.statistics (s : State) (group : Byte) : List Half :=
  let trunk (t : TrunkStats) : List Half :=
    [t.framesStored, t.duplicates, t.headerErrors, t.checkFailures, t.busyRefusals, t.sourceInvalid, t.enumMisdirected,
      t.framesSent, t.retransmissions, t.strayAcks, t.retryExhaustions, t.residenceDiscards, t.queueFullSkips]
  if group = 1 then trunk s.trunkA.stats
  else if group = 2 then trunk s.trunkB.stats
  else if group = 3 then
    [s.loc.stats.framesIn, s.loc.stats.framesOut, s.loc.stats.localRefusals, s.loc.stats.residenceDiscards,
      s.loc.stats.queueFullSkips]
  else if group = 4 then
    [s.mgmt.stats.requestsExecuted, s.mgmt.stats.malformed, s.mgmt.stats.requestsRefused, s.mgmt.stats.replays,
      s.mgmt.stats.replaysSuppressed, s.mgmt.stats.responsesDropped]
  else []

/-- A list of statistics with `count` of them, from `start` on, set to 0 (R116). -/
def clearedRange (l : List Half) (start count : Nat) : List Half :=
  l.take start ++ List.replicate count 0 ++ l.drop (start + count)

/-! ### Rows of the table -/

/-- The trunk port a command names. -/
def trunkPort? : Instr → Option TrunkPort
  | .sofReceived p => some p
  | .dataByteReceived p _ => some p
  | .eofReceived p => some p
  | .codeErrorReceived p => some p
  | .ackReceived p _ => some p
  | .nakReceived p _ _ => some p
  | .helloReceived p => some p
  | .idleReceived p => some p
  | .silenceTimeout p => some p
  | .answerSent p => some p
  | .txSelect p => some p
  | .copyEofSent p => some p
  | .ackWaitExpiry p => some p
  | .retryWaitExpiry p => some p
  | .powerOnReset | .lookup | .bankSwap | .commitComplete | .meterTick | .enumHandling | .sessionTimerExpiry
  | .syncCopyStep | .requestStart | .info | .readSteer | .writeSteer | .readChmap | .writeChmap | .openEdit
  | .closeEdit | .sync | .commit | .editStatus | .readMeter | .writeMeter | .readCounters | .readCountersClear
  | .readParam | .writeParam | .portEnableWrite | .attentionMaskWrite | .releasePortRetry | .releasePortDrop
  | .releasePortFlush | .readEvents | .resetNode | .responseHandover | .resetLimitExpiry | .localIngressByte _ _
  | .localAdmissionRetry | .localEgressSelect | .localEgressByte => none

/-- The commands that take a command of the request in execution (R150). -/
def requestCommands : List Instr :=
  [.info, .readSteer, .writeSteer, .readChmap, .writeChmap, .openEdit, .closeEdit, .sync, .commit, .editStatus, .readMeter,
    .writeMeter, .readCounters, .readCountersClear, .readParam, .writeParam, .portEnableWrite, .attentionMaskWrite,
    .releasePortRetry, .releasePortDrop, .releasePortFlush, .readEvents, .resetNode]

/-- The command code of a row that takes a command of a request (R103); none for every other row. -/
def requestCode : Instr → Option Byte
  | .info => some 0x01
  | .readSteer => some 0x02
  | .writeSteer => some 0x03
  | .readChmap => some 0x04
  | .writeChmap => some 0x05
  | .openEdit => some 0x06
  | .closeEdit => some 0x07
  | .sync => some 0x08
  | .commit => some 0x09
  | .editStatus => some 0x0A
  | .readMeter => some 0x0B
  | .writeMeter => some 0x0C
  | .readCounters => some 0x0D
  | .readCountersClear => some 0x0D
  | .readParam => some 0x0E
  | .writeParam => some 0x0F
  | .portEnableWrite => some 0x0F
  | .attentionMaskWrite => some 0x0F
  | .releasePortRetry => some 0x10
  | .releasePortDrop => some 0x10
  | .releasePortFlush => some 0x10
  | .readEvents => some 0x11
  | .resetNode => some 0x12
  | .powerOnReset | .sofReceived _ | .dataByteReceived _ _ | .eofReceived _ | .codeErrorReceived _ | .ackReceived _ _
  | .nakReceived _ _ _ | .helloReceived _ | .idleReceived _ | .silenceTimeout _ | .answerSent _ | .lookup | .bankSwap
  | .commitComplete | .meterTick | .txSelect _ | .copyEofSent _ | .ackWaitExpiry _ | .retryWaitExpiry _ | .enumHandling
  | .sessionTimerExpiry | .syncCopyStep | .requestStart | .responseHandover | .resetLimitExpiry | .localIngressByte _ _
  | .localAdmissionRetry | .localEgressSelect | .localEgressByte => none

/-- Which command of a request a row takes (R103): its code, and the argument byte that splits READ_COUNTERS (clear flag),
WRITE_PARAM (parameter number) and RELEASE_PORT (disposition) into rows (log 7). -/
def rowTakes (i : Instr) (c : Cmd) : Bool :=
  match requestCode i with
  | none => false
  | some code =>
    c.code == code &&
      (match i with
        | .readCounters => byteAt c.args 3 != 1
        | .readCountersClear => byteAt c.args 3 == 1
        | .writeParam => byteAt c.args 0 != 17 && byteAt c.args 0 != 18 && byteAt c.args 0 != 21
        | .portEnableWrite => byteAt c.args 0 == 17 || byteAt c.args 0 == 18
        | .attentionMaskWrite => byteAt c.args 0 == 21
        | .releasePortRetry => byteAt c.args 1 != 2 && byteAt c.args 1 != 3
        | .releasePortDrop => byteAt c.args 1 == 2
        | .releasePortFlush => byteAt c.args 1 == 3
        | _ => true)

/-- No reset can happen at the next event but a power-on reset: none is pending and none is recorded (R162, R163). -/
def State.resetFree (s : State) : Prop :=
  s.resetPending = false ∧ ∀ e, s.mgmt.executor = .executing e → e.reset = none

end Sys2Proof.Machine
end

