-- ==== Sys2Proof/Certificates/Slice0/Obligations.lean ====
section
/-! DEFINITION. The statements for the provers. Each docstring names the rule of spec/ a statement rests on and, where a
clause is the model's own choice, the row of notes/assumptions that declares it. -/

section

open Sys2Proof Sys2Proof.Machine

/-! ### The block and its queue -/

/-- One step takes the command at the front of the queue and is `exec` of it with the queue's rest; on an empty queue the
block idles, which is the model's choice (log 15). -/
def Obligations.StepRunsFrontCommand : Prop :=
  (∀ (c : Instr) (q : List Instr) (s : State), step { s with pending := c :: q } = exec c { s with pending := q }) ∧
  (∀ s : State, s.pending = [] → step s = .next s)

/-- Every command completes in every state, and none touches the queue of waiting commands. The spec gives the node no state in
which it stops. That a command whose event the node does not take in its present state answers the state unchanged (log 4),
that a power-on or full reset keeps the waiting commands (log 15), and the queue itself (log 20), are the model's choices. -/
def Obligations.EveryCommandCompletes : Prop :=
  ∀ (c : Instr) (s : State), ∃ t : State, exec c s = .next t ∧ t.pending = s.pending

/-! ### Invariants -/

/-- The state after reset keeps every promise of `State.sound` and the books of the frame store (`State.StoreSound`). -/
def Obligations.ResetStateIsSound : Prop := State.reset.sound = true ∧ State.reset.StoreSound

/-- Every sparse table, and the pages' bytes, stay in canonical form at every step. -/
def Obligations.StepKeepsCanonicalForm : Prop :=
  ∀ s t : State, s.canonical = true → step s = .next t → t.canonical = true

/-- At every step no meter's level passes its burst (R106), the selector stays the generation's parity (R130), a numbered
node's station stays 1 to 254 (R118), and the edit session stays sound (R131, R141). -/
def Obligations.StepKeepsMetersBanksStationSession : Prop :=
  (∀ s t : State, s.metersSound = true → s.banksSound = true → step s = .next t →
      t.metersSound = true ∧ t.banksSound = true) ∧
  (∀ s t : State, s.numberingSound = true → step s = .next t → t.numberingSound = true) ∧
  (∀ s t : State, s.sessionSound = true → step s = .next t → t.sessionSound = true)

/-- The event queue stays bounded, consecutively numbered, and in step with its flag and output (R170, R173, R174). -/
def Obligations.StepKeepsEventQueueSound : Prop :=
  ∀ s t : State, s.eventsSound = true → step s = .next t → t.eventsSound = true

/-- M stays at most four requests (R147), the cache at most eight entries with one per requester (R158). -/
def Obligations.StepKeepsRequestsAndCacheBounded : Prop :=
  ∀ s t : State, s.requestsSound = true → s.cacheSound = true → step s = .next t →
    t.requestsSound = true ∧ t.cacheSound = true

/-- Both transmitters stay sound at every step (R66). -/
def Obligations.StepKeepsTransmittersSound : Prop :=
  ∀ s t : State, s.transmittersSound = true → step s = .next t → t.transmittersSound = true

/-- Both receivers (R44, R50) and both link monitors (R94, R97) stay sound at every step. -/
def Obligations.StepKeepsReceiversAndLinksSound : Prop :=
  (∀ s t : State, s.receiversSound = true → step s = .next t → t.receiversSound = true) ∧
  (∀ s t : State, s.linksSound = true → step s = .next t → t.linksSound = true)

/-- The active bank changes only at a bank swap and at a power-on or full reset (R130); the identity of the node only by the
handling of an ENUM and at a power-on or full reset (R118). -/
def Obligations.BankAndIdentityChangeOnlyByTheirCommands : Prop :=
  (∀ (c : Instr) (s t : State), c ≠ .bankSwap → c ≠ .powerOnReset → s.fullResetPending = false →
      (∀ e, s.mgmt.executor = .executing e → e.reset ≠ some .full) → exec c s = .next t → t.activeBank = s.activeBank) ∧
  (∀ (c : Instr) (s t : State), c ≠ .enumHandling → c ≠ .powerOnReset → s.fullResetPending = false →
      (∀ e, s.mgmt.executor = .executing e → e.reset ≠ some .full) → exec c s = .next t → t.numbering = s.numbering)

/-- What every command but a power-on reset leaves alone while no reset can happen (R162): node time, meters, counters,
parameters, identity, held ENUMs, steering, session and management engine change only by the commands whose effect they are;
a command of one trunk port leaves the other port's receiver, transmitter and link alone, and a command of neither port both,
but for PORT_ENABLE_WRITE and the releases of a HELD port; and, with no monitor station to send notices to (R172), a byte of a
page changes only where a frame is received, steered or built. -/
def Obligations.CommandsLeaveOtherPartsAlone : Prop :=
  ∀ (c : Instr) (s t : State), c ≠ .powerOnReset → s.resetFree → exec c s = .next t →
    (c ≠ .meterTick → t.nodeTime = s.nodeTime) ∧
    (c ∉ [Instr.meterTick, .lookup, .writeMeter] → t.meters = s.meters) ∧
    (c ∉ [Instr.lookup, .readCountersClear] → t.counters = s.counters) ∧
    (c ∉ [Instr.writeParam, .portEnableWrite, .attentionMaskWrite] → t.params = s.params) ∧
    (c ≠ .enumHandling → t.numbering = s.numbering) ∧
    (c ∉ [Instr.lookup, .enumHandling] → t.enums = s.enums) ∧
    (c ∉ [Instr.eofReceived .a, .eofReceived .b, .lookup, .bankSwap, .writeSteer, .writeChmap, .syncCopyStep,
        .localAdmissionRetry] → (∀ b last, c ≠ .localIngressByte b last) → t.steer = s.steer) ∧
    (c ∉ requestCommands ++ [Instr.bankSwap, .commitComplete, .sessionTimerExpiry, .syncCopyStep] →
      t.session = s.session) ∧
    (c ∉ requestCommands ++ [Instr.lookup, .commitComplete, .requestStart, .responseHandover] → t.mgmt = s.mgmt) ∧
    (∀ p, trunkPort? c ≠ some p →
      c ∉ [Instr.portEnableWrite, .releasePortRetry, .releasePortDrop, .releasePortFlush] →
      (t.trunk p).rx = (s.trunk p).rx ∧ t.tx p = s.tx p ∧ (t.trunk p).link = (s.trunk p).link) ∧
    (c ∉ [Instr.localEgressSelect, .localEgressByte] → t.loc.egress = s.loc.egress) ∧
    (s.params.monitorStation = none → (∀ p b, c ≠ .dataByteReceived p b) → (∀ b last, c ≠ .localIngressByte b last) →
      c ∉ [Instr.lookup, .localAdmissionRetry, .enumHandling, .responseHandover] →
      ∀ x, Memory.read t.store.mem x = Memory.read s.store.mem x)

/-! ### Resets -/

/-- POWER_ON_RESET puts every block in its power-on state, with RESET_DONE of cause POWER as event 0 (R42, R175); a full reset
performed at RESET_LIMIT_EXPIRY does the same with cause FULL, but for the ends of a local frame partway through (R164, R166,
R183, R184). The bytes of the pages are kept (R42). A transfer cut marks the byte on the outbound lines or, if none is there, a
byte of value 0: which of the two is a free choice (log 9). The model's choices: the waiting commands and the numbering of free
choices are kept (log 15, log 3), every record reads as one never handed out (log 2), and an egress already in ABORTING keeps its
marked byte at a full reset (log 26). -/
def Obligations.PowerOnAndFullResetEffect : Prop :=
  (∀ s : State, exec .powerOnReset s = .next { State.reset with
      store := { State.reset.store with mem := s.store.mem }, choices := s.choices, pending := s.pending }) ∧
  (∀ (s : State) (w : Option (Port × Nat)), s.mgmt.executor = .resetPending { scope := .full, watched := w } →
      exec .resetLimitExpiry s = .next { State.reset with
        store := { State.reset.store with mem := s.store.mem }
        loc := { State.reset.loc with ingress := ingressAfterReset s.loc.ingress, egress := s.cutEgress.loc.egress }
        events :=
          { State.reset.events with
            records := [{ seq := 0, kind := .resetDone, port := none, time := 0, detail := some 3 }] }
        choices := s.cutEgress.choices
        pending := s.pending }) ∧
  (∀ s : State,
      (∀ e k, s.loc.egress = .transfer e k →
        s.cutEgress.choices = s.choices + 1 ∧
        (s.cutEgress.loc.egress = .aborting (byteAt (sentImage (s.frameBytes e.frame) 0) k) ∨
          s.cutEgress.loc.egress = .aborting 0)) ∧
      ((∀ e k, s.loc.egress ≠ .transfer e k) → s.cutEgress = s))

/-- RESET_LIMIT_EXPIRY with a traffic reset pending clears the traffic and keeps configuration, counts and identity (R165). The
receivers wait for SOF; backlogs, M and the held ENUMs are empty (R25, R61, R128, R147). Of the twelve queues only the entry of
the watched response stays, and a port whose frame in flight is another, or that has none, is IDLE, TxSeq advanced over a sent
frame (R67, R89). A watched response in flight stays as it is, but a HELD one is suspended and, on a usable port, sent again at
once if it passes the residence check (R89). That the Acknowledged mark of a watched response in SENDING stays with the rest of
its transmitter is the model's choice (log 30): R89 does not name that mark. Local ingress ends a frame partway through, local
egress cuts a transfer of another frame (R183, R184). RESET_DONE with cause TRAFFIC is raised. The queues are stated for a store
whose releases raise no STORE_LOW and an event queue whose append sends no notice, so that no notice joins them. -/
def Obligations.TrafficResetAtLimit : Prop :=
  ∀ (s : State) (w : Option (Port × Nat)), Sparse.wf Meter.blank s.meters = true →
    s.mgmt.executor = .resetPending { scope := .traffic, watched := w } →
    ∃ t : State, exec .resetLimitExpiry s = .next t ∧
      t.mgmt.executor = .idle ∧ t.mgmt.queue = [] ∧ t.enums = [] ∧
      t.steer.backlogA = [] ∧ t.steer.backlogB = [] ∧ t.steer.backlogL = [] ∧ t.steer.lastServed = .l ∧
      t.trunkA.rx = { s.trunkA.rx with reception := .waitSof } ∧
      t.trunkB.rx = { s.trunkB.rx with reception := .waitSof } ∧
      t.trunkA.link = s.trunkA.link ∧ t.trunkB.link = s.trunkB.link ∧
      (∀ i, t.meter i = { s.meter i with level := (s.meter i).burst }) ∧
      t.counters = s.counters ∧ t.numbering = s.numbering ∧ t.session = s.session ∧ t.params = s.params ∧
      t.mgmt.cache = s.mgmt.cache ∧ t.mgmt.stats = s.mgmt.stats ∧ t.nodeTime = s.nodeTime ∧
      t.steer.bank0 = s.steer.bank0 ∧ t.steer.bank1 = s.steer.bank1 ∧ t.steer.selector = s.steer.selector ∧
      t.steer.generation = s.steer.generation ∧
      (∀ p e, (s.tx p).inFlight = some e →
        (w ≠ some (portOf p, e.frame) → t.tx p = (s.tx p).vacated) ∧
        (w = some (portOf p, e.frame) → (s.tx p).state ≠ .held → t.tx p = s.tx p) ∧
        (w = some (portOf p, e.frame) → (s.tx p).state = .held → s.usable p = false →
          t.tx p = { (s.tx p) with state := .idle, acked := false, timer := none })) ∧
      (∀ p, (s.tx p).inFlight = none →
        t.tx p =
          { state := .idle, txSeq := (s.tx p).txSeq, attempts := 0, inFlight := none, sent := false, acked := false
            timer := none }) ∧
      (match s.loc.ingress with
        | .idle => t.loc.ingress = .idle
        | .waitRoom h _ => t.loc.ingress = if (parseHeader h).length = 0 then .idle else .discard
        | .header _ | .payload _ _ _ | .discard => t.loc.ingress = .discard) ∧
      (∀ e k, s.loc.egress = .transfer e k →
        (w = some (.l, e.frame) → t.loc.egress = s.loc.egress) ∧
        (w ≠ some (.l, e.frame) → s.roomy →
          t.loc.egress = .aborting (byteAt (sentImage (s.frameBytes e.frame) 0) k) ∨ t.loc.egress = .aborting 0)) ∧
      ((∀ e k, s.loc.egress ≠ .transfer e k) → t.loc.egress = s.loc.egress) ∧
      (s.roomy → s.events.records ≠ [] →
        (s.events.records.length < 32 →
          t.events =
            { s.events with
              records := s.events.records ++
                [{ seq := s.events.nextSeq, kind := .resetDone, port := none, time := s.nodeTime, detail := some 2 }]
              nextSeq := s.events.nextSeq + 1
              attention := attentionOf s.params.attentionMask t.events.records }) ∧
        t.loc.queues = s.loc.queues.keep (fun e => decide (w = some (.l, e.frame))) ∧ t.loc.stats = s.loc.stats ∧
        (∀ p,
          ((s.tx p).state ≠ .held →
            (t.trunk p).queues = (s.trunk p).queues.keep (fun e => decide (w = some (portOf p, e.frame))) ∧
            (t.trunk p).stats = (s.trunk p).stats) ∧
          (∀ x ∈ (t.trunk p).queues.entries, w = some (portOf p, x.frame)) ∧
          (∀ e, (s.tx p).inFlight = some e → w = some (portOf p, e.frame) → (s.tx p).state = .held →
            s.usable p = true → s.fresh e.frame = true →
            t.tx p = { (s.tx p) with state := .sending, sent := true, acked := false, timer := none })))

/-! ### Reception -/

/-- SOF_RECEIVED: in WAIT_SOF a frame in progress starts; in HEADER the frame in progress ends as HEADER_BAD first (R46, R47); in
PAYLOAD and CHECK it is cut first: answered NAK CHECK, counted, and its record, where it has one, given back (R35, R53). A frame in
progress starts with Seq and Length 0, which is the model's choice (log 25). -/
def Obligations.SofStartsFrame : Prop :=
  ∀ (s : State) (p : TrunkPort), s.hearsPlainly p → s.resetDue = false →
    ((s.trunk p).rx.reception = .waitSof →
      exec (.sofReceived p) s = .next (s.setTrunk p { s.trunk p with
        link := (s.trunk p).link.heard, rx := { (s.trunk p).rx with reception := .header RxFrame.start } })) ∧
    (∀ f, (s.trunk p).rx.reception = .header f →
      exec (.sofReceived p) s = .next (s.setTrunk p { s.trunk p with
        link := (s.trunk p).link.heard, rx := { (s.trunk p).rx with reception := .header RxFrame.start }
        stats := { (s.trunk p).stats with headerErrors := satInc (s.trunk p).stats.headerErrors } })) ∧
    (∀ f, (s.trunk p).rx.reception = .payload f ∨ (s.trunk p).rx.reception = .check f → f.frame = none ∨ s.roomy →
      ∃ t : State, exec (.sofReceived p) s = .next t ∧
        State.gaveBack
          (s.setTrunk p { s.trunk p with
            link := (s.trunk p).link.heard
            rx :=
              { (s.trunk p).rx with
                reception := .header RxFrame.start, answers := (s.trunk p).rx.answers ++ [.nak f.seq .check] }
            stats := { (s.trunk p).stats with checkFailures := satInc (s.trunk p).stats.checkFailures } })
          f.frame t)

/-- HELLO_RECEIVED clears LastSeq and IDLE_RECEIVED changes nothing of reception; both restart the silence timer and count
into the run of a DOWN link (R45, R58, R95, R96). While a port is disabled every symbol received on it is ignored (R45, R97).
CODE_ERROR_RECEIVED damages a frame past its header, ends a header as HEADER_BAD, is ignored in WAIT_SOF, and breaks the run of a
DOWN link (R46, R47, R50, R95). -/
def Obligations.HelloIdleCodeErrorAndDisabledPort : Prop :=
  (∀ (s : State) (p : TrunkPort), s.hearsPlainly p → s.resetDue = false →
      exec (.helloReceived p) s = .next (s.setTrunk p { s.trunk p with
        link :=
          { up := (s.trunk p).link.up, silence := true
            run := if (s.trunk p).link.up then (s.trunk p).link.run else (s.trunk p).link.run + 1 }
        rx := { (s.trunk p).rx with lastSeq := none } }) ∧
      exec (.idleReceived p) s = .next (s.setTrunk p { s.trunk p with
        link :=
          { up := (s.trunk p).link.up, silence := true
            run := if (s.trunk p).link.up then (s.trunk p).link.run else (s.trunk p).link.run + 1 } })) ∧
  (∀ (s : State) (p : TrunkPort) (b : Byte) (q : LinkSeq) (r : NakReason), s.enabled p = false → s.resetDue = false →
      ∀ c ∈ [Instr.sofReceived p, .dataByteReceived p b, .eofReceived p, .codeErrorReceived p, .ackReceived p q,
        .nakReceived p q r, .helloReceived p, .idleReceived p], exec c s = .next s) ∧
  (∀ (s : State) (p : TrunkPort) (l : Link), s.enabled p = true →
      l = { (s.trunk p).link with run := if (s.trunk p).link.up then (s.trunk p).link.run else 0 } →
      ((s.trunk p).rx.reception = .waitSof →
        exec (.codeErrorReceived p) s = .next (s.setTrunk p { s.trunk p with link := l })) ∧
      (∀ f, (s.trunk p).rx.reception = .header f →
        exec (.codeErrorReceived p) s = .next (s.setTrunk p { s.trunk p with
          link := l, rx := { (s.trunk p).rx with reception := .waitSof }
          stats := { (s.trunk p).stats with headerErrors := satInc (s.trunk p).stats.headerErrors } })) ∧
      (∀ f, (s.trunk p).rx.reception = .payload f →
        exec (.codeErrorReceived p) s = .next (s.setTrunk p { s.trunk p with
          link := l, rx := { (s.trunk p).rx with reception := .payload { f with damaged := true } } })) ∧
      (∀ f, (s.trunk p).rx.reception = .check f →
        exec (.codeErrorReceived p) s = .next (s.setTrunk p { s.trunk p with
          link := l, rx := { (s.trunk p).rx with reception := .check { f with damaged := true } } })))

/-- A byte of a frame whose check bytes are not complete is kept where it belongs: a header byte before the tenth, a payload
byte of a stored frame in its record's pages and nowhere else, a frame check byte held for the EOF; a payload byte of a refused
frame is only counted and summed, and in WAIT_SOF it is ignored (R46, R47, R50). A byte after the fourth check byte ends the frame
as a runaway: answered NAK CHECK, counted, its record, where it has one, given back (R35, R51). -/
def Obligations.DataByteTaken : Prop :=
  ∀ (s : State) (p : TrunkPort) (b : Byte), s.hearsPlainly p → s.resetDue = false →
    ((s.trunk p).rx.reception = .waitSof →
      exec (.dataByteReceived p b) s = .next (s.setTrunk p { s.trunk p with link := (s.trunk p).link.heard })) ∧
    (∀ f, (s.trunk p).rx.reception = .header f → f.header.length < 9 →
      exec (.dataByteReceived p b) s = .next (s.setTrunk p { s.trunk p with
        link := (s.trunk p).link.heard
        rx :=
          { (s.trunk p).rx with
            reception := .header { f with header := f.header ++ [b], check := frameCheckNext f.check b } } })) ∧
    (∀ f r a, (s.trunk p).rx.reception = .payload f → f.frame = some r → 10 + f.after < (s.record r).size →
      (s.record r).addr (10 + f.after) = some a →
      ∃ t : State, exec (.dataByteReceived p b) s = .next t ∧
        t = { (s.setTrunk p { s.trunk p with
            link := (s.trunk p).link.heard
            rx :=
              { (s.trunk p).rx with
                reception :=
                  if f.after + 1 < f.length then
                    .payload { f with after := f.after + 1, check := frameCheckNext f.check b }
                  else .check { f with after := f.after + 1, check := frameCheckNext f.check b } } }) with
          store := { s.store with mem := Memory.write s.store.mem a b } } ∧
        Memory.read t.store.mem a = b ∧ ∀ x, x ≠ a → Memory.read t.store.mem x = Memory.read s.store.mem x) ∧
    (∀ f, (s.trunk p).rx.reception = .payload f → f.frame = none →
      exec (.dataByteReceived p b) s = .next (s.setTrunk p { s.trunk p with
        link := (s.trunk p).link.heard
        rx :=
          { (s.trunk p).rx with
            reception :=
              if f.after + 1 < f.length then
                .payload { f with after := f.after + 1, check := frameCheckNext f.check b }
              else .check { f with after := f.after + 1, check := frameCheckNext f.check b } } })) ∧
    (∀ f, (s.trunk p).rx.reception = .check f → f.checkBytes.length < 4 →
      exec (.dataByteReceived p b) s = .next (s.setTrunk p { s.trunk p with
        link := (s.trunk p).link.heard
        rx :=
          { (s.trunk p).rx with
            reception := .check { f with after := f.after + 1, checkBytes := f.checkBytes ++ [b] } } })) ∧
    (∀ f, (s.trunk p).rx.reception = .check f → f.checkBytes.length = 4 → f.frame = none ∨ s.roomy →
      ∃ t : State, exec (.dataByteReceived p b) s = .next t ∧
        State.gaveBack
          (s.setTrunk p { s.trunk p with
            link := (s.trunk p).link.heard
            rx :=
              { (s.trunk p).rx with
                reception := .waitSof, answers := (s.trunk p).rx.answers ++ [.nak f.seq .check] }
            stats := { (s.trunk p).stats with checkFailures := satInc (s.trunk p).stats.checkFailures } })
          f.frame t)

/-- The tenth header byte (R48, R49): a header error ends the frame unanswered; a good header is refused while a reset is
pending or without room, and otherwise admitted: the head record and the head pages are taken, the record is FILLING and
charged to the port, and the ten header bytes are its first ten bytes. -/
def Obligations.TenthHeaderByteJudged : Prop :=
  ∀ (s : State) (p : TrunkPort) (b : Byte) (f : RxFrame), s.hearsPlainly p → s.resetDue = false →
    (s.trunk p).rx.reception = .header f → f.header.length = 9 →
    (Machine.headerBad (f.header ++ [b]) = true →
      exec (.dataByteReceived p b) s = .next (s.setTrunk p { s.trunk p with
        link := (s.trunk p).link.heard, rx := { (s.trunk p).rx with reception := .waitSof }
        stats := { (s.trunk p).stats with headerErrors := satInc (s.trunk p).stats.headerErrors } })) ∧
    (∀ h n g, h = parseHeader (f.header ++ [b]) → n = pagesNeeded h.length.toNat →
      g = { f with header := f.header ++ [b], check := frameCheckNext f.check b, seq := h.seq, length := h.length.toNat } →
      Machine.headerBad (f.header ++ [b]) = false →
      (s.resetPending = true ∨ s.store.freeRecs = [] ∨ s.store.freePages.length < n + 34 ∨
          s.quota (trunkSource p) < s.store.held.get (trunkSource p) + n →
        exec (.dataByteReceived p b) s = .next (s.setTrunk p { s.trunk p with
          link := (s.trunk p).link.heard
          rx := { (s.trunk p).rx with reception := bodyState { g with refused := true } } })) ∧
      (∀ r rest, s.resetPending = false → s.store.freeRecs = r :: rest → n + 34 ≤ s.store.freePages.length →
        s.store.held.get (trunkSource p) + n ≤ s.quota (trunkSource p) →
        ∃ t : State, exec (.dataByteReceived p b) s = .next t ∧
          (t.trunk p).rx.reception = bodyState { g with frame := some r } ∧
          t.store.freeRecs = rest ∧ t.store.freePages = s.store.freePages.drop n ∧
          t.store.held = s.store.held.on (· + n) (trunkSource p) ∧
          t.record r =
            { state := .filling, source := trunkSource p, size := 10 + h.length.toNat
              pages := s.store.freePages.take n, arrival := s.nodeTime, refs := 0 } ∧
          (∀ i, i < 10 → t.frameByte r i = byteAt (f.header ++ [b]) i) ∧
          t.events = s.events ∧ t.steer = s.steer ∧ t.trunk (otherPort p) = s.trunk (otherPort p) ∧ t.loc = s.loc))

/-- EOF_RECEIVED. In WAIT_SOF it is ignored, in HEADER the frame is HEADER_BAD (R46, R47). In PAYLOAD, with fewer than four check
bytes, after damage or with other check bytes the frame is CHECK_FAILED: NAK CHECK, counted (R52, R54). Otherwise it is DUPLICATE
(ACK, counted), REFUSED (NAK BUSY, counted) or STORED, the first that holds (R54 to R57). The record of a frame that is not stored
goes back to the tails of both free lists with its source's held pages lowered (R38, R56). -/
def Obligations.EofDisposition : Prop :=
  ∀ (s : State) (p : TrunkPort), s.hearsPlainly p → s.resetDue = false →
    ((s.trunk p).rx.reception = .waitSof →
      exec (.eofReceived p) s = .next (s.setTrunk p { s.trunk p with link := (s.trunk p).link.heard })) ∧
    (∀ f, (s.trunk p).rx.reception = .header f →
      exec (.eofReceived p) s = .next (s.setTrunk p { s.trunk p with
        link := (s.trunk p).link.heard, rx := { (s.trunk p).rx with reception := .waitSof }
        stats := { (s.trunk p).stats with headerErrors := satInc (s.trunk p).stats.headerErrors } })) ∧
    (∀ f, f.frame = none ∨ s.roomy →
      (s.trunk p).rx.reception = .payload f ∨
        (s.trunk p).rx.reception = .check f ∧
          (f.checkBytes.length < 4 ∨ f.damaged = true ∨ f.checkBytes ≠ beBytes 4 f.check.toNat) →
      ∃ t : State, exec (.eofReceived p) s = .next t ∧
        State.gaveBack
          (s.setTrunk p { s.trunk p with
            link := (s.trunk p).link.heard
            rx :=
              { (s.trunk p).rx with
                reception := .waitSof, answers := (s.trunk p).rx.answers ++ [.nak f.seq .check] }
            stats := { (s.trunk p).stats with checkFailures := satInc (s.trunk p).stats.checkFailures } })
          f.frame t) ∧
    (∀ f, (s.trunk p).rx.reception = .check f → f.damaged = false → f.checkBytes = beBytes 4 f.check.toNat →
      ((s.trunk p).rx.lastSeq = some f.seq → f.frame = none ∨ s.roomy →
        ∃ t : State, exec (.eofReceived p) s = .next t ∧
          State.gaveBack
            (s.setTrunk p { s.trunk p with
              link := (s.trunk p).link.heard
              rx := { (s.trunk p).rx with reception := .waitSof, answers := (s.trunk p).rx.answers ++ [.ack f.seq] }
              stats := { (s.trunk p).stats with duplicates := satInc (s.trunk p).stats.duplicates } })
            f.frame t) ∧
      ((s.trunk p).rx.lastSeq ≠ some f.seq → f.refused = true →
        exec (.eofReceived p) s = .next (s.setTrunk p { s.trunk p with
          link := (s.trunk p).link.heard
          rx := { (s.trunk p).rx with reception := .waitSof, answers := (s.trunk p).rx.answers ++ [.nak f.seq .busy] }
          stats := { (s.trunk p).stats with busyRefusals := satInc (s.trunk p).stats.busyRefusals } })) ∧
      (∀ r, (s.trunk p).rx.lastSeq ≠ some f.seq → f.refused = false → f.frame = some r →
        exec (.eofReceived p) s = .next (((s.setRecord r { s.record r with state := .waiting, refs := 0 }).setBacklog
          (portOf p) (s.backlog (portOf p) ++ [r])).setTrunk p { s.trunk p with
            link := (s.trunk p).link.heard
            rx := { reception := .waitSof, lastSeq := some f.seq, answers := (s.trunk p).rx.answers ++ [.ack f.seq] }
            stats := { (s.trunk p).stats with framesStored := satInc (s.trunk p).stats.framesStored } })))

/-! ### The link -/

/-- SILENCE_TIMEOUT: a DOWN link's run is broken; an UP link goes DOWN (R95, R96). Under KEEP, in WAIT_SOF and whatever the
event queue holds, LINK_DOWN stands in it and the frame in flight is suspended with its Seq and attempt count, a HELD port
staying HELD (R84, R86). With an event queue whose append sends no notice the whole effect is given: a frame in HEADER is
dropped and counted as a header error, one in PAYLOAD or CHECK as a check failure with its record given back, none answered
(R60); an acknowledged copy completes (R84); under FLUSH every entry of the port leaves but a held head (R86). A watched
response that leaves is PendingResetIsPerformed's. The count of free choices is the model's own (log 3). -/
def Obligations.SilenceTimeoutEffect : Prop :=
  ∀ (s : State) (p : TrunkPort), s.enabled p = true → (s.trunk p).link.silence = true → s.resetDue = false →
    ((s.trunk p).link.up = false →
      exec (.silenceTimeout p) s = .next (s.setTrunk p { s.trunk p with
        link := { up := false, run := 0, silence := true } })) ∧
    ((s.trunk p).link.up = true → (s.trunk p).rx.reception = .waitSof → (s.tx p).acked = false →
      s.params.linkDownPolicy = .keep → s.events.records.length < 32 →
      ∃ t : State, exec (.silenceTimeout p) s = .next t ∧ (t.trunk p).link = { up := false, run := 0, silence := true } ∧
        (t.trunk p).rx = (s.trunk p).rx ∧ (t.tx p).state = (if (s.tx p).state = .held then .held else .idle) ∧
        (t.tx p).inFlight = (s.tx p).inFlight ∧ (t.tx p).txSeq = (s.tx p).txSeq ∧
        (t.tx p).attempts = (s.tx p).attempts ∧ (t.tx p).sent = (s.tx p).sent ∧
        (∃ e ∈ t.events.records, e.kind = .linkDown ∧ e.port = some (portOf p)) ∧
        t.steer = s.steer ∧ t.session = s.session ∧ t.params = s.params) ∧
    ((s.trunk p).link.up = true → (s.tx p).sound = true → s.roomy → s.events.records ≠ [] →
      (∀ f, (s.trunk p).rx.reception = .header f → f.frame = none) →
      (∀ r, s.watches (portOf p) r = true → s.params.linkDownPolicy = .keep ∧ (s.tx p).leavesAtDown .keep = false) →
      ∃ t : State, exec (.silenceTimeout p) s = .next t ∧
        s.wentDown p true { (s.trunk p).rx with reception := .waitSof }
          (match (s.trunk p).rx.reception with
            | .waitSof => (s.trunk p).stats
            | .header _ => { (s.trunk p).stats with headerErrors := satInc (s.trunk p).stats.headerErrors }
            | .payload _ | .check _ =>
              { (s.trunk p).stats with checkFailures := satInc (s.trunk p).stats.checkFailures })
          t)

/-- The 64th good symbol of a run takes the link UP and raises LINK_UP (R94, R95), here with no frame to resume: none in flight,
or the port HELD, which stays HELD (R85). Of an IDLE and of a HELLO the whole effect is given. Of every valid symbol, SOF, byte, EOF,
ACK and NAK among them, the effect is that of the same symbol heard earlier in the run, with the link UP and LINK_UP added, where
the symbol itself raises no event and the queue's append sends no notice. The count of free choices is the model's own (log 3). -/
def Obligations.RunOfSymbolsTakesLinkUp : Prop :=
  ∀ (s : State) (p : TrunkPort), s.enabled p = true → (s.trunk p).link.up = false → (s.trunk p).link.run + 1 = 64 →
    ((s.tx p).inFlight = none ∨ (s.tx p).state = .held) → s.resetDue = false →
    exec (.idleReceived p) s = .next ((State.setTrunk { s with choices := s.choices + 2 } p { s.trunk p with
      link := { up := true, run := 64, silence := true } }).raiseEvent .linkUp (some (portOf p)) none) ∧
    exec (.helloReceived p) s = .next ((State.setTrunk { s with choices := s.choices + 2 } p { s.trunk p with
      link := { up := true, run := 64, silence := true }
      rx := { (s.trunk p).rx with lastSeq := none } }).raiseEvent .linkUp (some (portOf p)) none) ∧
    (∀ (b : Byte) (q : LinkSeq) (why : NakReason) (t : State), s.events.records ≠ [] →
      ∀ c ∈ [Instr.sofReceived p, .dataByteReceived p b, .eofReceived p, .ackReceived p q, .nakReceived p q why,
        .helloReceived p, .idleReceived p],
      exec c (State.setTrunk { s with choices := s.choices + 2 } p { s.trunk p with
        link := { (s.trunk p).link with run := 0 } }) = .next t →
      t.events = s.events →
      exec c s = .next ((t.setTrunk p { t.trunk p with
        link := { up := true, run := 64, silence := true } }).raiseEvent .linkUp (some (portOf p)) none))

/-- The 64th good symbol resumes a suspended frame (R85), here an IDLE, a HELLO, an EOF in WAIT_SOF and the frame's own ACK. One
that passes the residence check is sent again with the same Seq and attempt count, counted as a retransmission, or as sent where it
had not been (R70). One that fails it is discarded: counted, its entry gone, TxSeq advanced if it was sent (R69). The ACK of the
frame either completes it or is remembered in the copy that the UP event has begun: which acts first, and the order of LINK_UP and
the transmitter, are free choices (log 3). Where an entry leaves, the store has room and the event queue is not empty, so that no
notice and no STORE_LOW joins the effect. -/
def Obligations.LinkUpResumesFrame : Prop :=
  ∀ (s : State) (p : TrunkPort) (e : Entry) (up : Link) (age : Nat), s.enabled p = true → (s.trunk p).link.up = false →
    (s.trunk p).link.run + 1 = 64 → (s.tx p).state = .idle → (s.tx p).inFlight = some e →
    up = { up := true, run := 64, silence := true } → age = (s.nodeTime - (s.record e.frame).arrival).toNat →
    (∀ c x,
      c = .idleReceived p ∧ x = (s.trunk p).rx ∨ c = .helloReceived p ∧ x = { (s.trunk p).rx with lastSeq := none } ∨
        c = .eofReceived p ∧ (s.trunk p).rx.reception = .waitSof ∧ x = (s.trunk p).rx →
      (s.params.residenceLimit = 0 ∨ age ≤ s.params.residenceLimit → s.resetDue = false → e.frame ∉ s.store.freeRecs →
        exec c s = .next ((State.setTrunk { s with choices := s.choices + 2 } p { s.trunk p with
          link := up, rx := x
          tx := { (s.tx p) with state := .sending, sent := true, acked := false, timer := none }
          stats :=
            if (s.tx p).sent then
              { (s.trunk p).stats with retransmissions := satInc (s.trunk p).stats.retransmissions }
            else { (s.trunk p).stats with framesSent := satInc (s.trunk p).stats.framesSent } }).raiseEvent
          .linkUp (some (portOf p)) none)) ∧
      (s.params.residenceLimit ≠ 0 → s.params.residenceLimit < age → s.resetDue = false →
        s.watches (portOf p) e.frame = false → s.roomy → s.events.records ≠ [] →
        ∃ t : State, exec c s = .next t ∧
          t.trunk p =
            { s.trunk p with
              link := up, rx := x, tx := (s.tx p).vacated, queues := (s.trunk p).queues.without e
              stats :=
                { (s.trunk p).stats with residenceDiscards := satInc (s.trunk p).stats.residenceDiscards } } ∧
          t.trunk (otherPort p) = s.trunk (otherPort p) ∧ t.loc.queues = s.loc.queues ∧
          t.events = (s.raiseEvent .linkUp (some (portOf p)) none).events ∧ t.steer = s.steer ∧ t.mgmt = s.mgmt ∧
          t.store.mem = s.store.mem)) ∧
    ((s.tx p).sent = true → s.resetDue = false → s.watches (portOf p) e.frame = false → s.roomy → s.events.records ≠ [] →
      ∃ t : State, exec (.ackReceived p (s.tx p).txSeq) s = .next t ∧ (t.trunk p).link = up ∧
        (t.trunk p).rx = (s.trunk p).rx ∧ t.events = (s.raiseEvent .linkUp (some (portOf p)) none).events ∧
        t.trunk (otherPort p) = s.trunk (otherPort p) ∧ t.steer = s.steer ∧ t.mgmt = s.mgmt ∧
        (t.tx p = (s.tx p).vacated ∧ (t.trunk p).queues = (s.trunk p).queues.without e ∨
          (s.params.residenceLimit = 0 ∨ age ≤ s.params.residenceLimit) ∧
            t.tx p = { (s.tx p) with state := .sending, acked := true, timer := none } ∧
            (t.trunk p).queues = (s.trunk p).queues ∧
            (t.trunk p).stats =
              { (s.trunk p).stats with retransmissions := satInc (s.trunk p).stats.retransmissions }))

/-! ### Steering -/

/-- LOOKUP serves the first non-empty backlog after the last source served, takes its head and leaves banks, selector and
generation alone; with all three empty it changes nothing (R3, R5). -/
def Obligations.LookupServesBacklogsInTurn : Prop :=
  ∀ s : State,
    (∀ q r rest, s.nextLookup q r rest →
      ∃ t : State, exec .lookup s = .next t ∧ t.steer = ({ (s.setBacklog q rest).steer with lastServed := q } : Steering) ∧
        t.numbering = s.numbering ∧ t.session = s.session ∧ t.params = s.params) ∧
    (s.steer.backlogA = [] → s.steer.backlogB = [] → s.steer.backlogL = [] → exec .lookup s = .next s)

/-- Lookups without the tables, no meter charged and no counter bumped. A trunk frame of an ordinary kind with Source 255 is
counted at its port and released (R8). An ENUM from a trunk port goes to the numbering unit with one reference; an ENUM_END goes
to the other trunk port in its own class, numbered or not, or is skipped and released (R7). While UNNUMBERED an ordinary trunk
frame goes to the other trunk port in its own class, never to the local port or M, or is skipped, counted there and released
where that queue is full or flushed (R9, R21), and a local MREQ goes to M with its Source as requester, or is refused and
released where M holds four (R9). -/
def Obligations.LookupWithoutTables : Prop :=
  (∀ (s : State) (p : TrunkPort) (r : Nat) (rest : List Nat) (k : FrameKind), s.nextLookup (portOf p) r rest →
      kindOf (s.header r).kind = some k → k.ordinary = true → (s.header r).source = 255 → (s.record r).refs = 0 → s.roomy →
      ∃ t : State, exec .lookup s = .next t ∧
        t.trunk p = { s.trunk p with stats := { (s.trunk p).stats with sourceInvalid := satInc (s.trunk p).stats.sourceInvalid } } ∧
        t.trunk (otherPort p) = s.trunk (otherPort p) ∧ t.loc.queues = s.loc.queues ∧ t.mgmt = s.mgmt ∧
        t.meters = s.meters ∧ t.counters = s.counters ∧ t.store.freeRecs = s.store.freeRecs ++ [r] ∧
        t.store.freePages = s.store.freePages ++ (s.record r).pages ∧ t.store.mem = s.store.mem ∧ t.events = s.events) ∧
  (∀ (s : State) (p : TrunkPort) (r : Nat) (rest : List Nat), s.nextLookup (portOf p) r rest →
      kindOf (s.header r).kind = some .enum → (s.record r).refs = 0 → s.isQueued r = false →
      ∃ t : State, exec .lookup s = .next t ∧ t.enums = s.enums ++ [r] ∧
        t.record r = { s.record r with refs := 1, state := .waiting } ∧ t.trunkA = s.trunkA ∧ t.trunkB = s.trunkB ∧
        t.loc = s.loc ∧ t.mgmt = s.mgmt ∧ t.meters = s.meters ∧ t.counters = s.counters ∧ t.events = s.events ∧
        t.store.mem = s.store.mem) ∧
  (∀ (s : State) (p : TrunkPort) (r : Nat) (rest : List Nat) (k : FrameKind), s.nextLookup (portOf p) r rest →
      kindOf (s.header r).kind = some k → k.ordinary = true → (s.header r).source ≠ 255 → s.numbering = .unnumbered →
      (s.record r).refs = 0 →
      (s.canPlace (portOf (otherPort p)) (s.header r).cls = true →
        ∃ t : State, exec .lookup s = .next t ∧
          t.queues (portOf (otherPort p)) = (s.queues (portOf (otherPort p))).push (s.header r).cls r ∧
          t.record r = { s.record r with refs := 1, state := .queued } ∧ t.trunk p = s.trunk p ∧ t.loc = s.loc ∧
          t.mgmt = s.mgmt ∧ t.meters = s.meters ∧ t.counters = s.counters ∧ t.store.mem = s.store.mem) ∧
      (s.canPlace (portOf (otherPort p)) (s.header r).cls = false → s.roomy →
        ∃ t : State, exec .lookup s = .next t ∧ (∀ y, t.queues y = s.queues y) ∧ t.trunk p = s.trunk p ∧
          t.trunk (otherPort p) =
            { s.trunk (otherPort p) with
              stats :=
                { (s.trunk (otherPort p)).stats with
                  queueFullSkips := satInc (s.trunk (otherPort p)).stats.queueFullSkips } } ∧
          t.store.freeRecs = s.store.freeRecs ++ [r] ∧
          t.store.freePages = s.store.freePages ++ (s.record r).pages ∧ t.mgmt = s.mgmt ∧ t.enums = s.enums ∧
          t.meters = s.meters ∧ t.counters = s.counters ∧ t.events = s.events ∧ t.store.mem = s.store.mem)) ∧
  (∀ (s : State) (p : TrunkPort) (r : Nat) (rest : List Nat) (c : TrafficClass), s.nextLookup (portOf p) r rest →
      kindOf (s.header r).kind = some .enumEnd → (s.record r).refs = 0 → c = (s.header r).cls →
      (s.canPlace (portOf (otherPort p)) c = true →
        ∃ t : State, exec .lookup s = .next t ∧
          t.queues (portOf (otherPort p)) = (s.queues (portOf (otherPort p))).push c r ∧
          t.record r = { s.record r with refs := 1, state := .queued } ∧ t.trunk p = s.trunk p ∧ t.loc = s.loc ∧
          t.mgmt = s.mgmt ∧ t.enums = s.enums ∧ t.meters = s.meters ∧ t.counters = s.counters ∧ t.events = s.events ∧
          t.store.mem = s.store.mem) ∧
      (s.canPlace (portOf (otherPort p)) c = false → s.roomy →
        ∃ t : State, exec .lookup s = .next t ∧ (∀ y, t.queues y = s.queues y) ∧
          (t.trunk (otherPort p)).stats.queueFullSkips = satInc (s.trunk (otherPort p)).stats.queueFullSkips ∧
          t.store.freeRecs = s.store.freeRecs ++ [r] ∧ t.mgmt = s.mgmt ∧ t.enums = s.enums)) ∧
  (∀ (s : State) (r : Nat) (rest : List Nat), s.nextLookup .l r rest → kindOf (s.header r).kind = some .mreq →
      s.numbering = .unnumbered → (s.record r).refs = 0 →
      (s.mgmt.queue.length < 4 → s.isQueued r = false →
        ∃ t : State, exec .lookup s = .next t ∧
          t.mgmt = { s.mgmt with queue := s.mgmt.queue ++ [{ frame := r, requester := (s.header r).source }] } ∧
          t.record r = { s.record r with refs := 1, state := .waiting } ∧ t.trunkA = s.trunkA ∧ t.trunkB = s.trunkB ∧
          t.loc = s.loc ∧ t.meters = s.meters ∧ t.counters = s.counters ∧ t.store.mem = s.store.mem) ∧
      (4 ≤ s.mgmt.queue.length → s.roomy →
        ∃ t : State, exec .lookup s = .next t ∧
          t.mgmt =
            { s.mgmt with
              stats := { s.mgmt.stats with requestsRefused := satInc s.mgmt.stats.requestsRefused } } ∧
          t.store.freeRecs = s.store.freeRecs ++ [r] ∧ (∀ y, t.queues y = s.queues y)))

/-- The winner of a lookup is the matching entry of the highest Priority and, among those, of the lowest index; there is none
exactly where no entry matches (R10, R11, R12). -/
def Obligations.WinnerIsBestMatch : Prop :=
  ∀ (b : Bank) (q : Port) (up : TrunkPort) (k : FrameKind) (h : Header),
    (b.winner q up k h = none ↔ ∀ i, i < 256 → ¬(b.entry i).holdsFor q up k h) ∧
    ∀ i, i < 256 → (b.entry i).holdsFor q up k h →
      (∀ j, j < 256 → (b.entry j).holdsFor q up k h →
        (b.entry j).priority < (b.entry i).priority ∨ (b.entry j).priority = (b.entry i).priority ∧ i ≤ j) →
      b.winner q up k h = some (b.entry i)

/-- A frame steered by the tables goes where the decision says: to every port the delivery set names for it, in the class
decided, each placed or skipped, and to M for an MREQ that MGMT names or protection keeps (R13 to R17, R21, R22); a DROP
leaves a protected MREQ its delivery to M alone and any other frame none, a DEMOTE places in class 3, a MARK sets the stored
Mark (R19). Its stored header, within its first page, carries the rewrites, the class and the Mark, and no other byte of the
pages changes (R15, R18); that its stored check byte, byte 9, stays as it is through a rewrite is the model's choice (log 12). A
frame placed nowhere is released (R22). -/
def Obligations.LookupSteersByDecision : Prop :=
  ∀ (s : State) (q : Port) (r : Nat) (rest : List Nat) (own : Station) (up : TrunkPort) (k : FrameKind) (h : Header)
      (w : Option SteerEntry) (d : Delivery) (c0 c : TrafficClass) (x : Option ExceedAction),
    s.nextLookup q r rest → s.numbering = .numbered own up → h = s.header r → kindOf h.kind = some k →
    k.ordinary = true → (q = .l ∨ h.source ≠ 255) → (s.record r).refs = 0 → s.roomy →
    w = s.activeBank.winner q up k h → s.decides w k h own d c0 → x = s.exceeds w (s.record r).size →
    c = (if x = some .demote then 3 else c0) →
    ∃ t : State, exec .lookup s = .next t ∧
      (∀ y : Port, t.queues y =
        if d.names q up h.dest own y && decide (x ≠ some .drop) && s.canPlace y c then (s.queues y).push c r
        else s.queues y) ∧
      t.mgmt.queue =
        (if d.namesMgmt k h own (decide (x = some .drop)) && decide (s.mgmt.queue.length < 4) then
          s.mgmt.queue ++ [{ frame := r, requester := h.source }]
        else s.mgmt.queue) ∧
      (t.record r).refs =
        (([Port.a, .b, .l].filter
          (fun y => d.names q up h.dest own y && decide (x ≠ some .drop) && s.canPlace y c)).length +
          if d.namesMgmt k h own (decide (x = some .drop)) && decide (s.mgmt.queue.length < 4) then 1 else 0) ∧
      (if (t.record r).refs = 0 then t.store.freeRecs = s.store.freeRecs ++ [r]
        else t.store.freeRecs = s.store.freeRecs ∧
          (t.record r).state = if t.isQueued r then .queued else .waiting) ∧
      (∀ pg more, (s.record r).pages = pg :: more → 10 ≤ (s.record r).size →
        t.header r =
          { h with
            tag := (w.bind SteerEntry.newTag).getD h.tag, channel := (w.bind SteerEntry.newChannel).getD h.channel
            cls := c, mark := h.mark || decide (x = some .mark) }) ∧
      (∀ a, (∀ i ∈ [0, 1, 4, 5], (s.record r).addr i ≠ some a) →
        Memory.read t.store.mem a = Memory.read s.store.mem a) ∧
      t.events = s.events ∧ t.numbering = s.numbering

/-- The winner's meter is charged the stored size: a conforming frame lowers its level and bumps the winner's counter; one passed
by a disabled meter, or by a winner that names no meter, bumps it alone; an exceeding one raises its exceed count and bumps the
counter, whatever the action, unless it is a DROP of a frame that is no protected MREQ, which is placed nowhere, released and not
counted (R17 to R20, R108). A winner that names no counter bumps none. -/
def Obligations.LookupChargesWinner : Prop :=
  ∀ (s : State) (q : Port) (r : Nat) (rest : List Nat) (own : Station) (up : TrunkPort) (k : FrameKind) (w : SteerEntry)
    (bumped : Nat → EntryCounter), s.nextLookup q r rest → s.numbering = .numbered own up →
    kindOf (s.header r).kind = some k → k.ordinary = true → (q = .l ∨ (s.header r).source ≠ 255) →
    s.activeBank.winner q up k (s.header r) = some w →
    (∀ n, bumped n =
      if w.counter.map BitVec.toNat = some n then (s.counter n).bump (s.record r).size else s.counter n) →
    (w.meter = none →
      ∃ t : State, exec .lookup s = .next t ∧ t.meters = s.meters ∧ ∀ n, t.counter n = bumped n) ∧
    (∀ i : BitVec 5, w.meter = some i →
      ((s.meter i.toNat).enabled = false →
        ∃ t : State, exec .lookup s = .next t ∧ (∀ n, t.meter n = s.meter n) ∧ ∀ n, t.counter n = bumped n) ∧
      ((s.meter i.toNat).enabled = true → (s.record r).size ≤ (s.meter i.toNat).level →
        ∃ t : State, exec .lookup s = .next t ∧
          t.meter i.toNat = { s.meter i.toNat with level := (s.meter i.toNat).level - (s.record r).size } ∧
          (∀ n, n ≠ i.toNat → t.meter n = s.meter n) ∧ ∀ n, t.counter n = bumped n) ∧
      ((s.meter i.toNat).enabled = true → (s.meter i.toNat).level < (s.record r).size →
        ((s.meter i.toNat).action ≠ .drop ∨ isProtected k (s.header r) own = true) →
        ∃ t : State, exec .lookup s = .next t ∧
          t.meter i.toNat = { s.meter i.toNat with exceed := satInc (s.meter i.toNat).exceed } ∧
          (∀ n, n ≠ i.toNat → t.meter n = s.meter n) ∧ ∀ n, t.counter n = bumped n) ∧
      ((s.meter i.toNat).enabled = true → (s.meter i.toNat).level < (s.record r).size →
        (s.meter i.toNat).action = .drop → isProtected k (s.header r) own = false → (s.record r).refs = 0 → s.roomy →
        ∃ t : State, exec .lookup s = .next t ∧
          t.meter i.toNat = { s.meter i.toNat with exceed := satInc (s.meter i.toNat).exceed } ∧
          (∀ n, n ≠ i.toNat → t.meter n = s.meter n) ∧ t.counters = s.counters ∧
          (∀ x, t.queues x = s.queues x) ∧ t.mgmt = s.mgmt ∧ t.store.freeRecs = s.store.freeRecs ++ [r]))

/-! ### Numbering -/

/-- ENUM_HANDLING: an unnumbered node, or any node under force, takes an offered station 1 to 254 with the port of arrival
Upstream and raises NUMBER_TAKEN (R121 case 1); an unforced ENUM on the Downstream port of a numbered node is misdirected:
counted at its port, no frame sent, no event raised (R124). An ENUM whose payload is not of 4 bytes, offers station 0 or has a
must-be-zero bit set is discarded: nothing of numbering, ports or events changes (R119). With several ENUMs held, one of them is
handled as if it were the only one, and the others stay held (R129): which one is a free choice, whose count is the model's own
(log 3). With none held the command changes nothing (log 4). -/
def Obligations.EnumHandlingTakesOrMisdirects : Prop :=
  (∀ (s : State) (r : Nat) (p : TrunkPort) (o : EnumOffer), s.enums = [r] → (s.record r).source = trunkSource p →
      enumOffer (s.payload r) = some o → s.numbering = .unnumbered ∨ o.force = true → o.next ≠ 255 →
      ∃ t : State, exec .enumHandling s = .next t ∧ t.numbering = .numbered o.next p ∧ t.enums = [] ∧ t.session = s.session ∧
        t.steer = s.steer ∧ t.meters = s.meters ∧ t.counters = s.counters ∧ t.params = s.params ∧
        (s.events.records.length < 32 →
          ∃ e ∈ t.events.records, e.kind = .numberTaken ∧ e.port = some (portOf p) ∧ e.detail = some (o.next.setWidth 16))) ∧
  (∀ (s : State) (r : Nat) (p up : TrunkPort) (own : Station) (o : EnumOffer), s.enums = [r] →
      (s.record r).source = trunkSource p → enumOffer (s.payload r) = some o → s.numbering = .numbered own up →
      o.force = false → p ≠ up → s.roomy →
      ∃ t : State, exec .enumHandling s = .next t ∧ t.numbering = s.numbering ∧ t.enums = [] ∧
        t.trunk p = { s.trunk p with stats := { (s.trunk p).stats with enumMisdirected := satInc (s.trunk p).stats.enumMisdirected } } ∧
        t.trunk up = s.trunk up ∧ t.loc.queues = s.loc.queues ∧ t.events = s.events) ∧
  (∀ (s : State) (r : Nat), s.enums = [r] → s.roomy →
      (s.payload r).length ≠ 4 ∨ byteAt (s.payload r) 0 = 0 ∨ 1 < (byteAt (s.payload r) 1).toNat →
      ∃ t : State, exec .enumHandling s = .next t ∧ t.numbering = s.numbering ∧ t.enums = [] ∧ t.trunkA = s.trunkA ∧
        t.trunkB = s.trunkB ∧ t.loc.queues = s.loc.queues ∧ t.events = s.events ∧ t.mgmt = s.mgmt ∧
        t.choices = s.choices ∧ t.store.mem = s.store.mem) ∧
  (∀ s : State, s.enums = [] → exec .enumHandling s = .next s) ∧
  (∀ (s : State) (r1 r2 : Nat) (more : List Nat), s.enums = r1 :: r2 :: more →
      ∃ r u, r ∈ s.enums ∧ exec .enumHandling { s with enums := [r], choices := s.choices + 1 } = .next u ∧
        exec .enumHandling s = .next { u with enums := s.enums.erase r })

/-- What an ENUM_HANDLING sends. A node that takes the number, and a numbered node that gets an unforced ENUM on its Upstream
port, passes the run on: where the other port is enabled and UP an ENUM goes out of it with own station + 1, the force flag and the
run number (R121, R124); else an ENUM_END with own station and status END goes out of the port of arrival, and LINE_END is raised
with that port and detail END. An offer of station 255 to a node that would take a number is a full line: ENUM_END with station 254
and status FULL, LINE_END with detail FULL, numbering unchanged (R123). The frames are built as R120 says, byte for byte, and placed
in class 0 of the port named (R24); a placement skipped is counted and an admission refused sends nothing, and in both the numbering
and the events stand (R120). The event queue is not empty, so that no event sends a notice. That an ENUM_END is sent before LINE_END
is raised is not seen here (log 21); the Seq 0 and the check of the stored header are log 12's choice. -/
def Obligations.EnumPassesOnOrEndsLine : Prop :=
  ∀ (s : State) (r x : Nat) (p q : TrunkPort) (n f hi lo own : Byte) (num : Numbering) (u t' : State) (frame : List Byte),
    s.enums = [r] → (s.record r).source = trunkSource p → s.payload r = [n, f, hi, lo] → n ≠ 0 → (f = 0 ∨ f = 1) →
    s.events.records ≠ [] →
    ((((s.numbering = .unnumbered ∨ f = 1) ∧ n ≠ 255 ∧ own = n ∧ num = .numbered n p ∧
            u = s.raiseEvent .numberTaken (some (portOf p)) (some (n.setWidth 16)) ∨
          f = 0 ∧ s.numbering = .numbered own p ∧ num = s.numbering ∧ u = s) ∧
        (s.usable (otherPort p) = true ∧ q = otherPort p ∧ t' = u ∧
            frame =
              encodeHeader
                { kind := 4, mark := false, seq := 0, cls := 0, channel := 0, dest := 255, source := own, tag := 0, length := 4
                  zeros := 0 } ++ [own + 1, f, hi, lo] ∨
          s.usable (otherPort p) = false ∧ q = p ∧ t' = u.raiseEvent .lineEnd (some (portOf p)) (some 1) ∧
            frame =
              encodeHeader
                { kind := 5, mark := false, seq := 0, cls := 0, channel := 0, dest := 0, source := own, tag := 0, length := 4
                  zeros := 0 } ++ [own, 1, hi, lo])) ∨
      ((s.numbering = .unnumbered ∧ own = 255 ∨ f = 1 ∧ ∃ up, s.numbering = .numbered own up) ∧ n = 255 ∧
        num = s.numbering ∧ q = p ∧ t' = s.raiseEvent .lineEnd (some (portOf p)) (some 2) ∧
        frame =
          encodeHeader
            { kind := 5, mark := false, seq := 0, cls := 0, channel := 0, dest := 0, source := own, tag := 0, length := 4
              zeros := 0 } ++ [254, 2, hi, lo])) →
    (s.givesRoom x 1 → x ≠ r → s.canPlace (portOf q) 0 = true →
      ∃ t : State, exec .enumHandling s = .next t ∧ t.numbering = num ∧ t.enums = [] ∧ t.events = t'.events ∧
        s.sendsOut t q x frame) ∧
    (s.givesRoom x 1 → x ≠ r → s.canPlace (portOf q) 0 = false →
      ∃ t : State, exec .enumHandling s = .next t ∧ t.numbering = num ∧ t.enums = [] ∧ t.events = t'.events ∧
        (∀ y, t.queues y = s.queues y) ∧
        (t.trunk q).stats.queueFullSkips = satInc (s.trunk q).stats.queueFullSkips) ∧
    (s.lacksRoom 1 → s.roomy →
      ∃ t : State, exec .enumHandling s = .next t ∧ t.numbering = num ∧ t.enums = [] ∧ t.events = t'.events ∧
        t.trunkA = s.trunkA ∧ t.trunkB = s.trunkB ∧ t.loc.queues = s.loc.queues)

/-! ### Transmission -/

/-- TX_SELECT: an IDLE transmitter of an enabled UP port sends the head of its most urgent queue where that passes the
residence check (R68, R69, R70); a head alone in its port's queues that fails it is removed and counted, TxSeq staying (R67,
R69). That the one command also begins the first copy, Sent set and "frames sent" raised in it, is the model's reading (log 16). -/
def Obligations.TxSelectSendsOrDiscardsHead : Prop :=
  (∀ (s : State) (p : TrunkPort) (e : Entry) (more : List Entry), (s.tx p).state = .idle → (s.tx p).inFlight = none →
      s.enabled p = true → (s.trunk p).link.up = true → (s.trunk p).queues.entries = e :: more →
      (s.params.residenceLimit = 0 ∨ (s.nodeTime - (s.record e.frame).arrival).toNat ≤ s.params.residenceLimit) →
      s.resetDue = false →
      exec (.txSelect p) s = .next (s.setTrunk p { s.trunk p with
        tx := { (s.tx p) with state := .sending, inFlight := some e, sent := true, acked := false, timer := none }
        stats := { (s.trunk p).stats with framesSent := satInc (s.trunk p).stats.framesSent } })) ∧
  (∀ (s : State) (p : TrunkPort) (e : Entry), (s.tx p).state = .idle → (s.tx p).inFlight = none → s.enabled p = true →
      (s.trunk p).link.up = true → (s.trunk p).queues.entries = [e] → s.params.residenceLimit ≠ 0 →
      s.params.residenceLimit < (s.nodeTime - (s.record e.frame).arrival).toNat → s.roomy → s.resetDue = false →
      s.watches (portOf p) e.frame = false →
      ∃ t : State, exec (.txSelect p) s = .next t ∧ (t.trunk p).queues.entries = [] ∧ t.tx p = s.tx p ∧
        (t.trunk p).stats = { (s.trunk p).stats with residenceDiscards := satInc (s.trunk p).stats.residenceDiscards } ∧
        t.trunk (otherPort p) = s.trunk (otherPort p) ∧ t.loc.queues = s.loc.queues ∧ t.steer = s.steer)

/-- COPY_EOF_SENT: without an ACK taken during the copy the transmitter awaits one, ACK_WAIT running; the line has carried
SOF, the frame with Seq set to TxSeq and its checks computed, and EOF (R70). RETRY_WAIT_EXPIRY: a frame that passes the residence
check is sent again with the same Seq and attempt count (R75). ANSWER_SENT: the oldest pending answer of an enabled port leaves on
the line (R59, R93). The record of what the line last carried is the model's own (log 8). -/
def Obligations.CopyEndRetryAndAnswerSent : Prop :=
  (∀ (s : State) (p : TrunkPort) (e : Entry), (s.tx p).state = .sending → (s.tx p).inFlight = some e →
      (s.tx p).acked = false → s.resetDue = false →
      exec (.copyEofSent p) s = .next (s.setTrunk p { s.trunk p with
        tx := { (s.tx p) with state := .awaitingAck, timer := some s.params.ackWait }
        lineOut := copySymbols (s.frameBytes e.frame) (s.tx p).txSeq })) ∧
  (∀ (s : State) (p : TrunkPort) (e : Entry), (s.tx p).state = .retryWait → (s.tx p).timer.isSome = true →
      (s.tx p).inFlight = some e → (s.tx p).sent = true →
      (s.params.residenceLimit = 0 ∨ (s.nodeTime - (s.record e.frame).arrival).toNat ≤ s.params.residenceLimit) →
      s.resetDue = false →
      exec (.retryWaitExpiry p) s = .next (s.setTrunk p { s.trunk p with
        tx := { (s.tx p) with state := .sending, acked := false, timer := none }
        stats := { (s.trunk p).stats with retransmissions := satInc (s.trunk p).stats.retransmissions } })) ∧
  (∀ (s : State) (p : TrunkPort) (a : Answer) (rest : List Answer), s.enabled p = true →
      (s.trunk p).rx.answers = a :: rest →
      exec (.answerSent p) s = .next (s.setTrunk p { s.trunk p with
        rx := { (s.trunk p).rx with answers := rest }
        lineOut := [match a with | .ack q => .ack q | .nak q r => .nak q r] }))

/-- A completion (R71): on ACK(TxSeq) in AWAITING_ACK, in RETRY_WAIT or while suspended, and at the end of a copy already
acknowledged, the entry leaves its queue, TxSeq advances and the transmitter is IDLE with nothing in flight. ACK(TxSeq) taken while
SENDING is remembered and the copy goes on (R71); a stray ACK (R71), and a stray NAK whatever its reason (R74), raises "stray acks"
and changes nothing else. -/
def Obligations.AckCompletesIsRememberedOrStray : Prop :=
  (∀ (s : State) (p : TrunkPort) (e : Entry) (c : Instr), (s.tx p).inFlight = some e → (s.tx p).sent = true → s.roomy →
      s.resetDue = false → s.watches (portOf p) e.frame = false →
      (c = .ackReceived p (s.tx p).txSeq ∧ s.hearsPlainly p ∧
          ((s.tx p).state = .awaitingAck ∨ (s.tx p).state = .retryWait ∨ (s.tx p).state = .idle) ∨
        c = .copyEofSent p ∧ (s.tx p).state = .sending ∧ (s.tx p).acked = true) →
      ∃ t : State, exec c s = .next t ∧
        t.tx p =
          { state := .idle, txSeq := (s.tx p).txSeq + 1, attempts := 0, inFlight := none, sent := false, acked := false
            timer := none } ∧
        (t.trunk p).queues = (s.trunk p).queues.set e.cls (((s.trunk p).queues.get e.cls).erase e.frame) ∧
        (t.trunk p).stats = (s.trunk p).stats ∧ t.trunk (otherPort p) = s.trunk (otherPort p) ∧
        t.loc.queues = s.loc.queues ∧ t.steer = s.steer ∧ t.mgmt = s.mgmt ∧ t.store.mem = s.store.mem) ∧
  (∀ (s : State) (p : TrunkPort) (q : LinkSeq), s.hearsPlainly p → s.resetDue = false →
      (q = (s.tx p).txSeq → (s.tx p).state = .sending → (s.tx p).acked = false →
        exec (.ackReceived p q) s = .next (s.setTrunk p { s.trunk p with
          link := (s.trunk p).link.heard, tx := { (s.tx p) with acked := true } })) ∧
      (q ≠ (s.tx p).txSeq ∨ (s.tx p).state = .held ∨ (s.tx p).state = .sending ∧ (s.tx p).acked = true ∨
          (s.tx p).state = .idle ∧ (s.tx p).inFlight = none →
        exec (.ackReceived p q) s = .next (s.setTrunk p { s.trunk p with
          link := (s.trunk p).link.heard
          stats := { (s.trunk p).stats with strayAcks := satInc (s.trunk p).stats.strayAcks } })) ∧
      (∀ why, q ≠ (s.tx p).txSeq ∨ (s.tx p).state ≠ .awaitingAck →
        exec (.nakReceived p q why) s = .next (s.setTrunk p { s.trunk p with
          link := (s.trunk p).link.heard
          stats := { (s.trunk p).stats with strayAcks := satInc (s.trunk p).stats.strayAcks } })))

/-- In AWAITING_ACK a NAK(TxSeq, CHECK) or the expiry of ACK_WAIT counts an attempt and, below RETRY_LIMIT, starts a wait of
RETRY_STEP times the count; a NAK(TxSeq, BUSY) counts none and starts BUSY_WAIT (R72, R73). An exhausted frame (R76) under AGAIN
waits one RETRY_STEP with its count at 0 (R77); under DROP it is given up: counted, its entry removed, TxSeq advanced, the
transmitter IDLE, and RETRY_EXHAUSTED raised (R78); under HOLD the port is HELD with the frame and its count kept (R79). That a
count of 15 goes on to 16 is the model's choice (log 32). -/
def Obligations.FailedAttemptWaitsOrExhausts : Prop :=
  (∀ (s : State) (p : TrunkPort), (s.tx p).state = .awaitingAck → s.resetDue = false →
      (s.hearsPlainly p →
        exec (.nakReceived p (s.tx p).txSeq .busy) s = .next (s.setTrunk p { s.trunk p with
          link := (s.trunk p).link.heard, tx := { (s.tx p) with state := .retryWait, timer := some s.params.busyWait } })) ∧
      ((s.tx p).attempts + 1 < s.retryLimit p →
        (s.hearsPlainly p →
          exec (.nakReceived p (s.tx p).txSeq .check) s = .next (s.setTrunk p { s.trunk p with
            link := (s.trunk p).link.heard
            tx :=
              { (s.tx p) with
                state := .retryWait, attempts := (s.tx p).attempts + 1
                timer := some (s.params.retryStep * ((s.tx p).attempts + 1)) } })) ∧
        ((s.tx p).timer.isSome = true →
          exec (.ackWaitExpiry p) s = .next (s.setTrunk p { s.trunk p with
            tx :=
              { (s.tx p) with
                state := .retryWait, attempts := (s.tx p).attempts + 1
                timer := some (s.params.retryStep * ((s.tx p).attempts + 1)) } })))) ∧
  (∀ (s : State) (p : TrunkPort), (s.tx p).state = .awaitingAck → (s.tx p).timer.isSome = true →
      s.retryLimit p ≤ (s.tx p).attempts + 1 → s.resetDue = false →
      (s.retryPolicy p = .again →
        exec (.ackWaitExpiry p) s = .next (s.setTrunk p { s.trunk p with
          tx := { (s.tx p) with state := .retryWait, attempts := 0, timer := some s.params.retryStep }
          stats := { (s.trunk p).stats with retryExhaustions := satInc (s.trunk p).stats.retryExhaustions } })) ∧
      (∀ e, s.retryPolicy p = .drop → (s.tx p).inFlight = some e → s.watches (portOf p) e.frame = false → s.roomy →
        ∃ u : State, exec (.ackWaitExpiry p) s = .next (u.raiseEvent .retryExhausted (some (portOf p)) (some 2)) ∧
          u.tx p = (s.tx p).vacated ∧ (u.trunk p).queues = (s.trunk p).queues.without e ∧
          (u.trunk p).stats =
            { (s.trunk p).stats with retryExhaustions := satInc (s.trunk p).stats.retryExhaustions } ∧
          u.trunk (otherPort p) = s.trunk (otherPort p) ∧ u.loc.queues = s.loc.queues ∧ u.events = s.events ∧
          u.steer = s.steer ∧ u.mgmt = s.mgmt ∧ u.store.mem = s.store.mem) ∧
      (s.retryPolicy p = .hold → s.events.records.length < 31 →
        ∃ t : State, exec (.ackWaitExpiry p) s = .next t ∧
          t.tx p = { (s.tx p) with state := .held, attempts := (s.tx p).attempts + 1, timer := none } ∧
          (∃ e ∈ t.events.records, e.kind = .retryExhausted ∧ e.port = some (portOf p) ∧ e.detail = some 3) ∧
          ∃ e ∈ t.events.records, e.kind = .portHeld ∧ e.port = some (portOf p)))

/-! ### Meters and counters -/

/-- METER_TICK: node time advances by 1 ms and every enabled meter's level becomes the smaller of its burst and its level
plus its rate (R107); that one command carries the millisecond and all 32 ticks is the model's choice (log 14). WRITE_METER by a
requester the lock admits sets rate, burst, action and enabled mark, fills the level and clears the exceed count of that meter
alone (R111, R144). -/
def Obligations.MeterTickAndWriteMeter : Prop :=
  (∀ s : State, Sparse.wf Meter.blank s.meters = true →
      ∃ t : State, exec .meterTick s = .next t ∧ t.nodeTime = s.nodeTime + 1 ∧
      (∀ i, (s.meter i).enabled = true →
        t.meter i = { s.meter i with level := min (s.meter i).burst ((s.meter i).level + (s.meter i).rate) }) ∧
      (∀ i, (s.meter i).enabled = false → t.meter i = s.meter i) ∧
      t = { s with nodeTime := t.nodeTime, meters := t.meters }) ∧
  (∀ (s : State) (e : Execution) (c : Cmd) (rest : List Cmd) (index control r1 r0 b1 b0 : Byte) (on : Bool)
      (act : ExceedAction), s.standsAt e c rest → c.args = [index, control, r1, r0, b1, b0] → e.admits c 0x0C 0 →
      index.toNat ≤ 31 → controlOf control = some (on, act) → s.lockRefuses e.requester = false →
      ∃ t : State, exec .writeMeter s = .next (t.answerCmd e c rest .ok [] none) ∧ t = { s with meters := t.meters } ∧
        t.meter index.toNat =
          { enabled := on, rate := 256 * r1.toNat + r0.toNat, burst := 256 * b1.toNat + b0.toNat
            level := 256 * b1.toNat + b0.toNat, action := act, exceed := 0 } ∧
        ∀ i, i ≠ index.toNat → t.meter i = s.meter i)

/-- READ_METER: BAD_VALUE for a count of 0 or above 8, BAD_INDEX past meter 31, whatever the response already holds (R150);
otherwise, where the data fit, the records in ascending order; no meter changes and no session is asked (R112). -/
def Obligations.ReadMeterAnswers : Prop :=
  ∀ (s : State) (e : Execution) (c : Cmd) (rest : List Cmd) (index count : Byte), s.standsAt e c rest →
    c.args = [index, count] → c.formed 0x0B →
    (count = 0 ∨ 8 < count.toNat → exec .readMeter s = .next (s.answerCmd e c rest .badValue [] none)) ∧
    (count ≠ 0 → count.toNat ≤ 8 → 32 < index.toNat + count.toNat →
      exec .readMeter s = .next (s.answerCmd e c rest .badIndex [] none)) ∧
    (count ≠ 0 → count.toNat ≤ 8 → index.toNat + count.toNat ≤ 32 → e.admits c 0x0B (11 * count.toNat) →
      exec .readMeter s = .next (s.answerCmd e c rest .ok
        ((List.range count.toNat).flatMap (fun i => meterBytes (s.meter (index.toNat + i)))) none))

/-- READ_COUNTERS returns the records asked for and changes no counter; READ_COUNTERS_CLEAR by a requester the lock admits
returns the same records and sets to 0 those counters and no other (R115, R116): in the group ENTRY 10 bytes for each entry counter;
in PORT_A, PORT_B, LOCAL and MGMT 2 bytes for each statistic, in the order R114 numbers them. A group code above 4, a clear flag
above 1 and a count of 0 are answered BAD_VALUE, a range past the last number of the group BAD_INDEX, whatever the response already
holds and whoever asks (R115, R144, R150). -/
def Obligations.ReadCountersAndClear : Prop :=
  ∀ (s : State) (e : Execution) (c : Cmd) (rest : List Cmd) (group start count clear : Byte), s.standsAt e c rest →
    c.args = [group, start, count, clear] → c.formed 0x0D →
    (group = 0 → e.admits c 0x0D (10 * count.toNat) → count ≠ 0 → start.toNat + count.toNat ≤ 64 →
      (clear = 0 →
        exec .readCounters s = .next (s.answerCmd e c rest .ok
          ((List.range count.toNat).flatMap (fun i => counterBytes (s.counter (start.toNat + i)))) none)) ∧
      (clear = 1 → s.lockRefuses e.requester = false →
        ∃ t : State, exec .readCountersClear s = .next (t.answerCmd e c rest .ok
            ((List.range count.toNat).flatMap (fun i => counterBytes (s.counter (start.toNat + i)))) none) ∧
          t = { s with counters := t.counters } ∧
          ∀ n, t.counter n =
            if start.toNat ≤ n ∧ n < start.toNat + count.toNat then { frames := 0, bytes := 0 } else s.counter n)) ∧
    (∀ data, 1 ≤ group.toNat → group.toNat ≤ 4 → e.admits c 0x0D (2 * count.toNat) → count ≠ 0 →
      start.toNat + count.toNat ≤ (s.statistics group).length →
      data = (((s.statistics group).drop start.toNat).take count.toNat).flatMap (fun x => beBytes 2 x.toNat) →
      (clear = 0 → exec .readCounters s = .next (s.answerCmd e c rest .ok data none)) ∧
      (clear = 1 → s.lockRefuses e.requester = false →
        ∃ t : State, exec .readCountersClear s = .next (t.answerCmd e c rest .ok data none) ∧
          t.statistics group = clearedRange (s.statistics group) start.toNat count.toNat ∧
          (∀ g, g ≠ group → t.statistics g = s.statistics g) ∧
          t =
            { s with
              trunkA := { s.trunkA with stats := t.trunkA.stats }, trunkB := { s.trunkB with stats := t.trunkB.stats }
              loc := { s.loc with stats := t.loc.stats }, mgmt := { s.mgmt with stats := t.mgmt.stats } })) ∧
    (∀ i, clear = 1 ∧ i = .readCountersClear ∨ clear ≠ 1 ∧ i = .readCounters →
      (4 < group.toNat ∨ 1 < clear.toNat ∨ count = 0 →
        exec i s = .next (s.answerCmd e c rest .badValue [] none)) ∧
      (clear.toNat ≤ 1 → count ≠ 0 →
        group = 0 ∧ 64 < start.toNat + count.toNat ∨
          1 ≤ group.toNat ∧ group.toNat ≤ 4 ∧ (s.statistics group).length < start.toNat + count.toNat →
        exec i s = .next (s.answerCmd e c rest .badIndex [] none)))

/-! ### Edit sessions -/

/-- What an answered command leaves (R133, R150): its entry stands in the response; a result other than OK answers SKIPPED
for every command after it; the timer of an open session restarts for its owner while no swap is requested; nothing else
changes. For every row that takes a command of a request, COMMIT among them: a command whose argument bytes have not the fixed
length is answered BAD_VALUE; one that would be answered OK were the response still empty, and whose data then pass 1,024 bytes, is
answered TOO_LONG with none of its effect (R150, R151); a COMMIT whose own checks pass but whose two data bytes do not fit is
answered so when it is taken (R141). A row whose command is not the one that comes next changes nothing (log 4, log 7). -/
def Obligations.AnswerEndsCommand : Prop :=
  (∀ (s : State) (e : Execution) (c : Cmd) (rest : List Cmd) (res : CmdResult) (data : List Byte)
    (reset : Option ResetScope),
    s.answerCmd e c rest res data reset =
      { s with
        mgmt :=
          { s.mgmt with
            executor :=
              .executing
                (if res = .ok then
                  { e with
                    todo := rest, done := e.done ++ [{ code := c.code, result := .ok, data := data }]
                    reset := reset.or e.reset }
                else
                  { e with
                    todo := []
                    done := e.done ++ [{ code := c.code, result := res, data := data }] ++
                      rest.map (fun d => { code := d.code, result := .skipped, data := [] }) }) }
        session :=
          if s.session.state ≠ .closed ∧ s.session.owner = some e.requester ∧ s.session.swapRequested = false then
            { s.session with timer := some s.params.editTimeout }
          else s.session }) ∧
  (∀ i ∈ requestCommands, ∀ (s : State) (e : Execution) (c : Cmd) (rest : List Cmd), s.standsAt e c rest →
    (rowTakes i c = false → exec i s = .next s) ∧
    (rowTakes i c = true → (i = .commit → s.session.swapRequested = false) →
      (argLength c.code ≠ some c.args.length → exec i s = .next (s.answerCmd e c rest .badValue [] none)) ∧
      (∀ e0 s0 t data reset, e0 = { e with count := 1, done := [] } →
        s0 = { s with mgmt := { s.mgmt with executor := .executing e0 } } →
        exec i s0 = .next (State.answerCmd t e0 c rest .ok data reset) → 1024 < e.used + data.length →
        exec i s = .next (s.answerCmd e c rest .tooLong [] none)) ∧
      (i = .commit → argLength c.code = some c.args.length → s.session.state = .opened →
        s.session.owner = some e.requester → 1024 < e.used + 2 →
        exec i s = .next (s.answerCmd e c rest .tooLong [] none))))

/-- OPEN_EDIT opens a CLOSED session for its requester, is OK for the owner and LOCKED for any other (R132); CLOSE_EDIT of the
owner closes it and keeps the cursor (R135); the expiry of the running timer closes it and raises SESSION_EXPIRED (R134). -/
def Obligations.SessionOpensAndCloses : Prop :=
  (∀ (s : State) (e : Execution) (c : Cmd) (rest : List Cmd), s.standsAt e c rest →
      (e.admits c 0x06 0 →
        (s.session.state = .closed →
          exec .openEdit s = .next (State.answerCmd
            { s with
              session := { s.session with state := .opened, owner := some e.requester, timer := some s.params.editTimeout } }
            e c rest .ok [] none)) ∧
        (s.session.state ≠ .closed → s.session.owner = some e.requester →
          exec .openEdit s = .next (s.answerCmd e c rest .ok [] none)) ∧
        (s.session.state ≠ .closed → s.session.owner ≠ some e.requester →
          exec .openEdit s = .next (s.answerCmd e c rest .locked [] none))) ∧
      (e.admits c 0x07 0 → s.session.state ≠ .closed → s.session.owner = some e.requester →
        exec .closeEdit s = .next (State.answerCmd
          { s with
            session :=
              { state := .closed, owner := none, timer := none, cursor := s.session.cursor, swapRequested := false
                swapTaken := false } }
          e c rest .ok [] none))) ∧
  (∀ s : State, s.session.state ≠ .closed → s.session.timer.isSome = true →
      exec .sessionTimerExpiry s = .next (State.raiseEvent
        { s with
          session :=
            { state := .closed, owner := none, timer := none, cursor := s.session.cursor, swapRequested := false
              swapTaken := false } }
        .sessionExpired none none))

/-- WRITE_STEER and WRITE_CHMAP of the owner in OPEN replace one entry of the shadow bank whole, and nothing of the active
bank (R137, R138). -/
def Obligations.ShadowWritesReplaceEntry : Prop :=
  ∀ (s : State) (e : Execution) (c : Cmd) (rest : List Cmd), s.standsAt e c rest → s.session.state = .opened →
    s.session.owner = some e.requester →
    (∀ index bytes x, e.admits c 0x03 0 → c.args = index :: bytes → decodeEntry bytes = some x →
      ∃ t : State, exec .writeSteer s = .next (t.answerCmd e c rest .ok [] none) ∧
        t = { s with steer := t.steer } ∧ t.activeBank = s.activeBank ∧ t.steer.selector = s.steer.selector ∧
        t.shadowBank.entry index.toNat = x ∧
        (∀ i, i ≠ index.toNat → t.shadowBank.entry i = s.shadowBank.entry i) ∧ t.shadowBank.map = s.shadowBank.map) ∧
    (∀ index b, e.admits c 0x05 0 → c.args = [index, b] → index.toNat ≤ 63 →
      ∃ t : State, exec .writeChmap s = .next (t.answerCmd e c rest .ok [] none) ∧
        t = { s with steer := t.steer } ∧ t.activeBank = s.activeBank ∧ t.steer.selector = s.steer.selector ∧
        t.shadowBank.mapEntry index.toNat = decodeMapEntry b ∧
        (∀ i, i ≠ index.toNat → t.shadowBank.mapEntry i = s.shadowBank.mapEntry i) ∧
        t.shadowBank.table = s.shadowBank.table)

/-- READ_STEER and READ_CHMAP return the entries of the bank named, ACTIVE or, outside a copy, SHADOW, in ascending order and
change nothing; a bank code above 1 and a count of 0 or too great are BAD_VALUE, a range past the last entry BAD_INDEX, and the
SHADOW bank during a copy BUSY, the first that applies (R139). -/
def Obligations.BankReadsReturnEntries : Prop :=
  (∀ (s : State) (e : Execution) (c : Cmd) (rest : List Cmd) (code index count : Byte) (b : Bank), s.standsAt e c rest →
      c.args = [code, index, count] → count ≠ 0 →
      (code = 0 ∧ b = s.activeBank ∨ code = 1 ∧ b = s.shadowBank ∧ s.session.state ≠ .syncing) →
      (e.admits c 0x02 (20 * count.toNat) → count.toNat ≤ 8 → index.toNat + count.toNat ≤ 256 →
        exec .readSteer s = .next (s.answerCmd e c rest .ok
          ((List.range count.toNat).flatMap (fun i => encodeEntry (b.entry (index.toNat + i)))) none)) ∧
      (e.admits c 0x04 count.toNat → count.toNat ≤ 16 → index.toNat + count.toNat ≤ 64 →
        exec .readChmap s = .next (s.answerCmd e c rest .ok
          ((List.range count.toNat).flatMap (fun i => [encodeMapEntry (b.mapEntry (index.toNat + i))])) none))) ∧
  ∀ (s : State) (e : Execution) (c : Cmd) (rest : List Cmd) (code index count : Byte) (i : Instr) (max entries : Nat),
    s.standsAt e c rest → c.args = [code, index, count] →
    (c.formed 0x02 ∧ i = .readSteer ∧ max = 8 ∧ entries = 256 ∨ c.formed 0x04 ∧ i = .readChmap ∧ max = 16 ∧ entries = 64) →
    (1 < code.toNat ∨ count = 0 ∨ max < count.toNat → exec i s = .next (s.answerCmd e c rest .badValue [] none)) ∧
    (code.toNat ≤ 1 → count ≠ 0 → count.toNat ≤ max → entries < index.toNat + count.toNat →
      exec i s = .next (s.answerCmd e c rest .badIndex [] none)) ∧
    (code = 1 → s.session.state = .syncing → count ≠ 0 → count.toNat ≤ max → index.toNat + count.toNat ≤ entries →
      exec i s = .next (s.answerCmd e c rest .busy [] none))

/-- SYNC of the owner starts a copy from cursor 0; each SYNC_COPY_STEP copies the entry at the cursor from the active to the
shadow bank and raises the cursor, the step to 320 returning the session to OPEN (R140). -/
def Obligations.SyncCopiesEntryByEntry : Prop :=
  ∀ s : State,
    (∀ e c rest, s.standsAt e c rest → e.admits c 0x08 0 → s.session.state = .opened →
      s.session.owner = some e.requester →
      exec .sync s = .next (State.answerCmd { s with session := { s.session with state := .syncing, cursor := 0 } }
        e c rest .ok [] none)) ∧
    (s.session.state = .syncing →
      ∃ t : State, exec .syncCopyStep s = .next t ∧ t = { s with steer := t.steer, session := t.session } ∧
        t.session =
          { s.session with
            cursor := s.session.cursor + 1, state := if s.session.cursor + 1 < 320 then .syncing else .opened } ∧
        t.activeBank = s.activeBank ∧ t.steer.selector = s.steer.selector ∧
        (s.session.cursor < 256 →
          t.shadowBank.entry s.session.cursor = s.activeBank.entry s.session.cursor ∧
          ∀ i, i ≠ s.session.cursor → t.shadowBank.entry i = s.shadowBank.entry i) ∧
        (256 ≤ s.session.cursor →
          t.shadowBank.mapEntry (s.session.cursor - 256) = s.activeBank.mapEntry (s.session.cursor - 256) ∧
          ∀ i, i ≠ s.session.cursor - 256 → t.shadowBank.mapEntry i = s.shadowBank.mapEntry i))

/-- A COMMIT in its parts (R3, R141): COMMIT stops the timer and requests the swap; BANK_SWAP flips the selector and raises
the generation, with no entry changed; COMMIT_COMPLETE closes the session, raises SESSION_COMMITTED and answers OK with the
generation. The mark that the swap has been taken is the model's own (log 11). -/
def Obligations.CommitSwapsBanks : Prop :=
  ∀ (s : State) (e : Execution) (c : Cmd) (rest : List Cmd), s.standsAt e c rest → e.admits c 0x09 2 →
    s.session.state = .opened → s.session.owner = some e.requester →
    (s.session.swapRequested = false →
      exec .commit s = .next { s with
        session := { s.session with timer := none, swapRequested := true, swapTaken := false } }) ∧
    (s.session.swapRequested = true → s.session.swapTaken = false →
      ∃ t : State, exec .bankSwap s = .next t ∧ t.steer.selector ≠ s.steer.selector ∧
        t.steer.generation = s.steer.generation + 1 ∧ t.activeBank = s.shadowBank ∧ t.shadowBank = s.activeBank ∧
        t = { s with steer := t.steer, session := { s.session with swapTaken := true } }) ∧
    (s.session.swapRequested = true → s.session.swapTaken = true →
      exec .commitComplete s = .next (State.answerCmd
        (State.raiseEvent
          { s with
            session :=
              { state := .closed, owner := none, timer := none, cursor := s.session.cursor, swapRequested := false
                swapTaken := false } }
          .sessionCommitted none (some s.steer.generation))
        e c rest .ok (halfBytes s.steer.generation) none))

/-! ### Management -/

/-- REQUEST_START on a cache miss: a well-formed request is in execution with its commands to do; a malformed one goes to its
response with no command (R148, R149); that "malformed" is counted there is the model's reading (log 17). On a hit the cached
response becomes the most recently used entry and goes to the port its Destination names: suppressed and counted where that
port's queues hold it, placed in class 0 with its arrival time now and counted, or skipped; the request leaves M and the
executor stays IDLE (R147, R159). That the head of M is taken, the cache searched and the payload parsed in one event is the
model's choice (log 36). -/
def Obligations.RequestStartParsesOrReplays : Prop :=
  ∀ (s : State) (q : Request) (more : List Request), s.mgmt.executor = .idle → s.mgmt.queue = q :: more →
    (s.cached q.requester (requestId (s.payload q.frame)) = none →
      (∀ cmds, parseRequest (s.payload q.frame) = some cmds →
        exec .requestStart s = .next { s with
          mgmt :=
            { s.mgmt with
              executor := .executing
                { requester := q.requester, id := requestId (s.payload q.frame), malformed := false
                  count := cmds.length, todo := cmds, done := [], reset := none } } }) ∧
      (parseRequest (s.payload q.frame) = none →
        exec .requestStart s = .next { s with
          mgmt :=
            { s.mgmt with
              stats := { s.mgmt.stats with malformed := satInc s.mgmt.stats.malformed }
              executor := .executing
                { requester := q.requester, id := requestId (s.payload q.frame), malformed := true, count := 0
                  todo := [], done := [], reset := none } } })) ∧
    (∀ c y, s.mgmt.cache.find? (fun x => x.requester == q.requester && x.id == requestId (s.payload q.frame)) = some c →
      s.routeByDest (s.header c.frame).dest = some y → s.roomy →
      ∃ t : State, exec .requestStart s = .next t ∧ t.mgmt.executor = .idle ∧ t.mgmt.queue = more ∧
        t.mgmt.cache = s.mgmt.cache.erase c ++ [c] ∧ t.events = s.events ∧ t.session = s.session ∧
        t.store.mem = s.store.mem ∧ (∀ z, z ≠ y → t.queues z = s.queues z) ∧
        ((s.queues y).holds c.frame = true →
          t.queues y = s.queues y ∧ (t.record c.frame).arrival = (s.record c.frame).arrival ∧
          t.mgmt.stats = { s.mgmt.stats with replaysSuppressed := satInc s.mgmt.stats.replaysSuppressed }) ∧
        ((s.queues y).holds c.frame = false → s.canPlace y 0 = true →
          t.queues y = (s.queues y).push 0 c.frame ∧ (t.record c.frame).arrival = s.nodeTime ∧
          (c.frame ≠ q.frame → (t.record c.frame).refs = (s.record c.frame).refs + 1) ∧
          t.mgmt.stats = { s.mgmt.stats with replays := satInc s.mgmt.stats.replays }) ∧
        ((s.queues y).holds c.frame = false → s.canPlace y 0 = false →
          t.queues y = s.queues y ∧ t.mgmt.stats = s.mgmt.stats))

/-- INFO returns its 15 bytes and EDIT_STATUS its 4, to every requester, and both change nothing (R143, R153). -/
def Obligations.InfoAndEditStatusAnswer : Prop :=
  ∀ (s : State) (e : Execution) (c : Cmd) (rest : List Cmd), s.standsAt e c rest →
    (e.admits c 0x01 15 →
      exec .info s = .next (s.answerCmd e c rest .ok
        ([0x0A#8, 0x31#8, 0x24#8, 0x16#8, 0x01#8] ++
          (match s.numbering with
            | .unnumbered => [0#8, 0#8, 0#8]
            | .numbered own .a => [own, 1#8, 1#8]
            | .numbered own .b => [own, 2#8, 1#8]) ++
          beBytes 4 s.nodeTime.toNat ++ beBytes 2 s.steer.generation.toNat ++
          [match s.session.state with | .closed => 0#8 | .opened => 1#8 | .syncing => 2#8]) none)) ∧
    (e.admits c 0x0A 4 →
      exec .editStatus s = .next (s.answerCmd e c rest .ok
        ([match s.session.state with | .closed => 0#8 | .opened => 1#8 | .syncing => 2#8,
            if s.session.state = .closed then 0 else s.session.owner.getD 0] ++ beBytes 2 s.session.cursor) none))

/-- READ_PARAM returns the value held as two bytes for a parameter number 1 to 21, where they fit, and BAD_INDEX for any other
number, whatever the response already holds (R150), to every requester, and changes nothing (R155). -/
def Obligations.ReadParamAnswers : Prop :=
  ∀ (s : State) (e : Execution) (c : Cmd) (rest : List Cmd) (n : Byte), s.standsAt e c rest → c.args = [n] →
    c.formed 0x0E →
    (n = 0 ∨ 21 < n.toNat → exec .readParam s = .next (s.answerCmd e c rest .badIndex [] none)) ∧
    (n ≠ 0 → n.toNat ≤ 21 → e.admits c 0x0E 2 →
      ∃ v, paramValue s.params n.toNat = some v ∧
        exec .readParam s = .next (s.answerCmd e c rest .ok (halfBytes v) none))

/-- WRITE_PARAM of a valid value by a requester the lock admits: the parameter takes the value, a read of it gives the value
back, no other parameter changes (R156); a write of ATTENTION_MASK recomputes the output at the write (R174). -/
def Obligations.WriteParamTakesValue : Prop :=
  ∀ (s : State) (e : Execution) (c : Cmd) (rest : List Cmd) (n hi lo : Byte), s.standsAt e c rest →
    c.args = [n, hi, lo] → e.admits c 0x0F 0 → n ≠ 0 → n.toNat ≤ 21 → paramValid n.toNat (half hi lo).toNat = true →
    s.lockRefuses e.requester = false →
    ∃ q, paramValue q n.toNat = some (half hi lo) ∧
      (∀ m, m ≠ n.toNat → paramValue q m = paramValue s.params m) ∧
      (n ≠ 17 → n ≠ 18 → n ≠ 21 →
        exec .writeParam s = .next (State.answerCmd { s with params := q } e c rest .ok [] none)) ∧
      (n = 21 →
        exec .attentionMaskWrite s = .next (State.answerCmd
          { s with
            params := q
            events :=
              { s.events with
                attention := s.events.records.any (fun x => (half hi lo).getLsbD (eventCode x.kind)) } }
          e c rest .ok [] none))

/-- PORT_ENABLE_WRITE (R97): a write of the value held changes nothing; on, the link is DOWN with run 0 and the silence timer
started; off, the timer is stopped, the pending answers emptied and a frame in reception ended with its record given back and no
statistic (R60). Off with the link UP is a DOWN event, stated with an event queue whose append sends no notice: LINK_DOWN, the
frame in flight suspended or completed, the queues flushed under FLUSH (R84, R86, R87), where the count of free choices is the
model's own (log 3). That a port switched off with its link already DOWN flushes nothing, even under FLUSH, is the model's reading
(log 6). -/
def Obligations.PortEnableWriteSwitches : Prop :=
  ∀ (s : State) (e : Execution) (c : Cmd) (rest : List Cmd) (p : TrunkPort) (n lo : Byte), s.standsAt e c rest →
    c.args = [n, 0, lo] → e.admits c 0x0F 0 → (p = .a ∧ n = 17 ∨ p = .b ∧ n = 18) → s.lockRefuses e.requester = false →
    (lo = 0 ∧ s.enabled p = false ∨ lo = 1 ∧ s.enabled p = true →
      exec .portEnableWrite s = .next (s.answerCmd e c rest .ok [] none)) ∧
    (lo = 1 → s.enabled p = false →
      exec .portEnableWrite s = .next (State.answerCmd
        (State.setTrunk { s with params := setParam s.params n.toNat 1 } p { s.trunk p with
          link := { up := false, run := 0, silence := true } }) e c rest .ok [] none)) ∧
    (lo = 0 → s.enabled p = true → (s.trunk p).link.up = false →
      (s.trunk p).rx.reception.record? = none ∨ s.roomy →
      ∃ t : State, exec .portEnableWrite s = .next (t.answerCmd e c rest .ok [] none) ∧
        State.gaveBack
          (State.setTrunk { s with params := setParam s.params n.toNat 0 } p { s.trunk p with
            link := { up := false, run := 0, silence := false }
            rx := { (s.trunk p).rx with reception := .waitSof, answers := [] } })
          (s.trunk p).rx.reception.record? t) ∧
    (lo = 0 → s.enabled p = true → (s.trunk p).link.up = true → (s.tx p).sound = true → s.roomy →
      s.events.records ≠ [] →
      ∃ t : State, exec .portEnableWrite s = .next (t.answerCmd e c rest .ok [] none) ∧
        State.wentDown { s with params := setParam s.params n.toNat 0 } p false
          { (s.trunk p).rx with reception := .waitSof, answers := [] } (s.trunk p).stats t)

/-- RELEASE_PORT of a HELD port by a requester the lock admits (R80): RETRY sends the held frame again at once on a usable
port, its attempt count back at 0, and leaves it suspended on an unusable one (R81); DROP removes it and FLUSH empties the port's
four queues, TxSeq advancing, and both leave the queues of every other port alone (R82, R83); PORT_RELEASED carries the disposition.
Of a port that is not HELD it is answered NOT_HELD and the transmitter is unchanged (R80). -/
def Obligations.ReleasePortCarriesOut : Prop :=
  ∀ (s : State) (e : Execution) (c : Cmd) (rest : List Cmd) (p : TrunkPort) (port d : Byte),
    s.standsAt e c rest → c.args = [port, d] → c.formed 0x10 → trunkPortOf port = some p → s.lockRefuses e.requester = false →
    (∀ x, e.admits c 0x10 0 → (s.tx p).state = .held → (s.tx p).inFlight = some x → (s.tx p).sent = true →
      (d = 1 → s.usable p = true →
        exec .releasePortRetry s = .next (State.answerCmd
          (State.raiseEvent
            (s.setTrunk p { s.trunk p with
              tx := { (s.tx p) with state := .sending, attempts := 0, acked := false, timer := none }
              stats := { (s.trunk p).stats with retransmissions := satInc (s.trunk p).stats.retransmissions } })
            .portReleased (some (portOf p)) (some 1)) e c rest .ok [] none)) ∧
      (d = 1 → s.usable p = false →
        exec .releasePortRetry s = .next (State.answerCmd
          (State.raiseEvent
            (s.setTrunk p { s.trunk p with
              tx := { (s.tx p) with state := .idle, attempts := 0, acked := false, timer := none } })
            .portReleased (some (portOf p)) (some 1)) e c rest .ok [] none)) ∧
      (d = 2 →
        ∃ t : State, exec .releasePortDrop s = .next (State.answerCmd (t.raiseEvent .portReleased (some (portOf p)) (some 2))
            e c rest .ok [] none) ∧
          t.tx p =
            { state := .idle, txSeq := (s.tx p).txSeq + 1, attempts := 0, inFlight := none, sent := false, acked := false
              timer := none } ∧
          (s.roomy →
            (t.trunk p).queues = (s.trunk p).queues.set x.cls (((s.trunk p).queues.get x.cls).erase x.frame) ∧
            ∀ y, y ≠ portOf p → t.queues y = s.queues y)) ∧
      (d = 3 →
        ∃ t : State, exec .releasePortFlush s = .next (State.answerCmd (t.raiseEvent .portReleased (some (portOf p)) (some 3))
            e c rest .ok [] none) ∧
          t.tx p =
            { state := .idle, txSeq := (s.tx p).txSeq + 1, attempts := 0, inFlight := none, sent := false, acked := false
              timer := none } ∧
          (s.roomy →
            (t.trunk p).queues = { c0 := [], c1 := [], c2 := [], c3 := [] } ∧
            ∀ y, y ≠ portOf p → t.queues y = s.queues y))) ∧
    (∀ i, (s.tx p).state ≠ .held →
      d = 1 ∧ i = .releasePortRetry ∨ d = 2 ∧ i = .releasePortDrop ∨ d = 3 ∧ i = .releasePortFlush →
      exec i s = .next (s.answerCmd e c rest .notHeld [] none))

/-- READ_EVENTS returns the lost count and the oldest records up to max, removes them, clears the lost count, clears the
notice-outstanding flag where the queue is left empty, and recomputes ATTENTION; the next number stays (R154, R171). -/
def Obligations.ReadEventsDrainsQueue : Prop :=
  ∀ (s : State) (e : Execution) (c : Cmd) (rest : List Cmd) (max : Byte) (n : Nat), s.standsAt e c rest →
    c.args = [max] → max ≠ 0 → max.toNat ≤ 16 → n = min max.toNat s.events.records.length →
    e.admits c 0x11 (3 + 10 * n) →
    exec .readEvents s = .next (State.answerCmd
      { s with
        events :=
          { records := s.events.records.drop n, nextSeq := s.events.nextSeq, lost := 0
            noticeOutstanding := if s.events.records.length ≤ n then false else s.events.noticeOutstanding
            attention := attentionOf s.params.attentionMask (s.events.records.drop n) } }
      e c rest .ok (halfBytes s.events.lost ++ [BitVec.ofNat 8 n] ++ (s.events.records.take n).flatMap eventBytes) none)

/-- An event handed to the event queue. With fewer than 32 records held it is stored at the tail with the next number, the node
time and what the block supplies, and ATTENTION is recomputed; with 32 held it is lost and counted, the count stopping at its
maximum (R114, R168, R170, R174). Where it is stored in an empty queue, MONITOR_STATION is a station, the node is NUMBERED and the
notice-outstanding flag is clear, a NOTICE is due and no other event sends one: admitted under source I it is built as R172 and R101
say, byte for byte, and placed in class 0 at the local port, Upstream or Downstream by its Destination, or skipped, counted and
released at once; the flag is set on admission and stays clear on a refusal. A STORE_LOW of that admission is stored behind it and
sends nothing (R41, R172). The Seq 0 and the check of the stored header are log 12's choice. -/
def Obligations.AppendStoresLosesAndNotifies : Prop :=
  ∀ (s : State) (k : EventKind) (port : Option Port) (d : Option Half) (x low : EventRecord) (stored : State),
    x = { seq := s.events.nextSeq, kind := k, port := port, time := s.nodeTime, detail := d } →
    low = { seq := s.events.nextSeq + 1, kind := .storeLow, port := none, time := s.nodeTime, detail := none } →
    stored =
      { s with
        events :=
          { s.events with
            records := s.events.records ++ [x], nextSeq := s.events.nextSeq + 1
            attention := (s.events.records ++ [x]).any (fun y => s.params.attentionMask.getLsbD (eventCode y.kind)) } } →
    (32 ≤ s.events.records.length →
      s.raiseEvent k port d =
        { s with events := { s.events with lost := if s.events.lost = 0xFFFF then 0xFFFF else s.events.lost + 1 } }) ∧
    (s.events.records.length < 32 →
      s.events.records ≠ [] ∨ s.params.monitorStation = none ∨ s.numbering = .unnumbered ∨
        s.events.noticeOutstanding = true →
      s.raiseEvent k port d = stored) ∧
    (∀ monitor own up, s.events.records = [] → s.params.monitorStation = some monitor → s.numbering = .numbered own up →
      s.events.noticeOutstanding = false →
      (s.lacksRoom 1 → s.raiseEvent k port d = stored) ∧
      (∀ r free pg pages q, s.store.freeRecs = r :: free → s.store.freePages = pg :: pages →
        s.store.held.get .i + 1 ≤ s.quota .i →
        q = (if monitor = own ∨ monitor = 255 then Port.l
          else if monitor.toNat < own.toNat then portOf up else portOf (otherPort up)) →
        ∃ t, s.raiseEvent k port d = t ∧ t.events.noticeOutstanding = true ∧ t.events.lost = s.events.lost ∧
          t.events.records =
            (if s.store.watermark = .armed ∧ pages.length < 34 then [x, low] else [x]) ∧
          t.events.nextSeq =
            (if s.store.watermark = .armed ∧ pages.length < 34 then s.events.nextSeq + 2 else s.events.nextSeq + 1) ∧
          t.events.attention =
            t.events.records.any (fun y => s.params.attentionMask.getLsbD (eventCode y.kind)) ∧
          t.numbering = s.numbering ∧ t.params = s.params ∧ t.mgmt = s.mgmt ∧ t.steer = s.steer ∧
          (∀ y, y ≠ q → t.queues y = s.queues y) ∧
          (s.canPlace q 0 = true →
            t.queues q = (s.queues q).push 0 r ∧ t.store.freeRecs = free ∧ t.store.freePages = pages ∧
            t.store.held = s.store.held.on (· + 1) .i ∧
            t.record r =
              { state := .queued, source := .i, size := 20, pages := [pg], arrival := s.nodeTime, refs := 1 } ∧
            t.frameBytes r =
              encodeHeader
                { kind := 6, mark := false, seq := 0, cls := 0, channel := 0, dest := monitor, source := own, tag := 0
                  length := 10, zeros := 0 } ++
                beBytes 2 x.seq.toNat ++ [BitVec.ofNat 8 (eventCode k)] ++
                [(if d.isSome then 0x80 else 0) ||| (match port with
                  | none => 0#8
                  | some .a => 1#8
                  | some .b => 2#8
                  | some .l => 3#8)] ++
                beBytes 4 s.nodeTime.toNat ++ beBytes 2 (d.getD 0).toNat) ∧
          (s.canPlace q 0 = false →
            t.queues q = s.queues q ∧ t.store.freeRecs = free ++ [r] ∧ t.store.freePages = pages ++ [pg] ∧
            t.store.held = s.store.held ∧
            (∀ p, q = portOf p →
              (t.trunk p).stats.queueFullSkips = satInc (s.trunk p).stats.queueFullSkips) ∧
            (q = .l → t.loc.stats.queueFullSkips = satInc s.loc.stats.queueFullSkips))))

/-- RESET_NODE as the last command, by a requester the lock admits, resets nothing when taken and records its scope. A scope
other than 1 and 2 is BAD_VALUE; not as the last command it is NOT_LAST, whoever asks; as the last it is LOCKED for a requester
that does not own the open session (R144, R162). -/
def Obligations.ResetNodeRecordsScope : Prop :=
  ∀ (s : State) (e : Execution) (c : Cmd) (rest : List Cmd) (scope : Byte), s.standsAt e c rest → c.args = [scope] →
    c.formed 0x12 →
    (rest = [] → e.admits c 0x12 0 → (scope = 1 ∨ scope = 2) → s.lockRefuses e.requester = false →
      exec .resetNode s =
        .next (s.answerCmd e c [] .ok [] (some (if scope = 1 then ResetScope.traffic else ResetScope.full)))) ∧
    (scope ≠ 1 → scope ≠ 2 → exec .resetNode s = .next (s.answerCmd e c rest .badValue [] none)) ∧
    ((scope = 1 ∨ scope = 2) → rest ≠ [] → exec .resetNode s = .next (s.answerCmd e c rest .notLast [] none)) ∧
    ((scope = 1 ∨ scope = 2) → rest = [] → s.session.state ≠ .closed → s.session.owner ≠ some e.requester →
      exec .resetNode s = .next (s.answerCmd e c rest .locked [] none))

/-- The refusals of the commands that a session guards. WRITE_PARAM in its three rows, WRITE_METER, RELEASE_PORT in its three
rows and READ_COUNTERS_CLEAR check their own arguments first, whoever asks, and are then LOCKED for a requester that does not own the
open session, a RELEASE_PORT whether or not its port is HELD (R144). WRITE_STEER, WRITE_CHMAP, SYNC, COMMIT and CLOSE_EDIT are
NO_SESSION while the session is CLOSED, LOCKED for another requester, and, but for CLOSE_EDIT, BUSY for the owner during a copy
(R136); for the owner in OPEN an entry that is not valid is BAD_VALUE and a map index above 63 BAD_INDEX (R137, R138). None changes
anything beside its answer, and none depends on what the response already holds (R150). -/
def Obligations.LockAndSessionRefuse : Prop :=
  ∀ (s : State) (e : Execution) (c : Cmd) (rest : List Cmd), s.standsAt e c rest →
    (∀ i n hi lo, c.formed 0x0F → c.args = [n, hi, lo] → i ∈ [Instr.writeParam, .portEnableWrite, .attentionMaskWrite] →
      rowTakes i c = true →
      (n = 0 ∨ 21 < n.toNat → exec i s = .next (s.answerCmd e c rest .badIndex [] none)) ∧
      (n ≠ 0 → n.toNat ≤ 21 → paramValid n.toNat (half hi lo).toNat = false →
        exec i s = .next (s.answerCmd e c rest .badValue [] none)) ∧
      (n ≠ 0 → n.toNat ≤ 21 → paramValid n.toNat (half hi lo).toNat = true → s.session.state ≠ .closed →
        s.session.owner ≠ some e.requester → exec i s = .next (s.answerCmd e c rest .locked [] none))) ∧
    (∀ index control r1 r0 b1 b0, c.formed 0x0C → c.args = [index, control, r1, r0, b1, b0] →
      (31 < index.toNat → exec .writeMeter s = .next (s.answerCmd e c rest .badIndex [] none)) ∧
      (index.toNat ≤ 31 → controlOf control = none → exec .writeMeter s = .next (s.answerCmd e c rest .badValue [] none)) ∧
      (index.toNat ≤ 31 → controlOf control ≠ none → s.session.state ≠ .closed → s.session.owner ≠ some e.requester →
        exec .writeMeter s = .next (s.answerCmd e c rest .locked [] none))) ∧
    (∀ i port d, c.formed 0x10 → c.args = [port, d] →
      i ∈ [Instr.releasePortRetry, .releasePortDrop, .releasePortFlush] → rowTakes i c = true →
      (trunkPortOf port = none ∨ d = 0 ∨ 3 < d.toNat → exec i s = .next (s.answerCmd e c rest .badValue [] none)) ∧
      (trunkPortOf port ≠ none → d ≠ 0 → d.toNat ≤ 3 → s.session.state ≠ .closed → s.session.owner ≠ some e.requester →
        exec i s = .next (s.answerCmd e c rest .locked [] none))) ∧
    (∀ group start count, c.formed 0x0D → c.args = [group, start, count, 1] → count ≠ 0 →
      group = 0 ∧ start.toNat + count.toNat ≤ 64 ∨
        1 ≤ group.toNat ∧ group.toNat ≤ 4 ∧ start.toNat + count.toNat ≤ (s.statistics group).length →
      s.session.state ≠ .closed → s.session.owner ≠ some e.requester →
      exec .readCountersClear s = .next (s.answerCmd e c rest .locked [] none)) ∧
    (∀ code i, c.formed code →
      (code, i) ∈ [((0x03 : Byte), Instr.writeSteer), (0x05, .writeChmap), (0x07, .closeEdit), (0x08, .sync),
        (0x09, .commit)] →
      (i = .commit → s.session.swapRequested = false) →
      (s.session.state = .closed → exec i s = .next (s.answerCmd e c rest .noSession [] none)) ∧
      (s.session.state ≠ .closed → s.session.owner ≠ some e.requester →
        exec i s = .next (s.answerCmd e c rest .locked [] none)) ∧
      (s.session.state = .syncing → s.session.owner = some e.requester → i ≠ .closeEdit →
        exec i s = .next (s.answerCmd e c rest .busy [] none))) ∧
    (s.session.state = .opened → s.session.owner = some e.requester →
      (∀ index bytes, c.formed 0x03 → c.args = index :: bytes → decodeEntry bytes = none →
        exec .writeSteer s = .next (s.answerCmd e c rest .badValue [] none)) ∧
      (∀ index b, c.formed 0x05 → c.args = [index, b] → 63 < index.toNat →
        exec .writeChmap s = .next (s.answerCmd e c rest .badIndex [] none)))

/-- RESPONSE_HANDOVER. With room, the response takes the free record and pages and is built as the MRSP of R152, byte for byte;
it is placed in class 0 on the port its Destination names, or skipped, and cached as the most recent entry, in place of its
requester's entry, of the least recent of eight, or added; the request leaves M and the executor is IDLE (R148, R160). That of a
malformed request is the id, status MALFORMED and no entry, and does not count as a request executed (R149, R152). Refused, the
hand-over is that of the node with the least recently used response evicted, its reference dropped, and so on until admission is
granted or the cache is empty: an eviction that leaves the record another holder frees no room, one that was the last gives the
record and its pages back (R160). Without a free record, the record of the one evicted response serves. With the cache empty and
no room, the response is dropped, counted, and RESPONSE_DROPPED raised (R161). That "requests executed" rises here is the
model's reading (log 17); the Seq 0 of the stored header and its check are the model's choice (log 12). That build, admission,
evictions and hand-over are one event, between which no other block acts, is the model's choice too (log 36). -/
def Obligations.ResponseHandoverCaches : Prop :=
  ∀ (s : State) (e : Execution) (q : Request) (more : List Request) (n : Nat) (bytes : List Byte) (stats : MgmtStats),
    s.mgmt.executor = .executing e → e.todo = [] → s.mgmt.queue = q :: more →
    bytes = responsePayload e.id e.malformed e.done → n = pagesNeeded bytes.length →
    stats =
      (if e.malformed then s.mgmt.stats
        else { s.mgmt.stats with requestsExecuted := satInc s.mgmt.stats.requestsExecuted }) →
    (e.malformed = true → e.done = [] → n = 1 ∧ bytes = [e.id.extractLsb' 8 8, e.id.extractLsb' 0 8, 2, 0]) ∧
    (∀ r, e.reset = none → s.givesRoom r n →
      ∃ t : State, exec .responseHandover s = .next t ∧ t.mgmt.executor = .idle ∧ t.mgmt.queue = more ∧
        t.mgmt.cache =
          (match s.mgmt.cache.find? (fun x => x.requester == e.requester) with
            | some old => s.mgmt.cache.erase old
            | none => if s.mgmt.cache.length < 8 then s.mgmt.cache else s.mgmt.cache.drop 1) ++
            [{ requester := e.requester, id := e.id, frame := r }] ∧
        t.mgmt.stats = stats ∧ t.session = s.session ∧ t.params = s.params ∧ t.steer = s.steer ∧ t.events = s.events ∧
        (∀ y, t.queues y =
          if s.routeByDest e.requester = some y ∧ s.canPlace y 0 = true then (s.queues y).push 0 r else s.queues y) ∧
        (q.frame ≠ r → s.store.freePages.Nodup →
          t.frameBytes r =
            encodeHeader
              { kind := 3, mark := false, seq := 0, cls := 0, channel := (s.header q.frame).channel, dest := e.requester
                source := s.numbering.source, tag := (s.header q.frame).tag, length := BitVec.ofNat 11 bytes.length
                zeros := 0 } ++ bytes)) ∧
    (∀ c older, s.mgmt.cache = c :: older → s.lacksRoom n →
      ∃ u : State, exec .responseHandover s = exec .responseHandover u ∧ u.mgmt = { s.mgmt with cache := older } ∧
        u.numbering = s.numbering ∧ u.params = s.params ∧ (∀ y, s.roomy → u.queues y = s.queues y) ∧
        (∀ k, (s.record c.frame).refs = k + 2 →
          u.store.freeRecs = s.store.freeRecs ∧ u.store.freePages = s.store.freePages ∧
            u.store.held = s.store.held ∧ (u.record c.frame).refs = k + 1) ∧
        ((s.record c.frame).refs = 1 → s.onBacklog c.frame = false → (s.record c.frame).state ≠ .filling → s.roomy →
          u.store.freeRecs = s.store.freeRecs ++ [c.frame] ∧
            u.store.freePages = s.store.freePages ++ (s.record c.frame).pages ∧
            u.store.held = s.store.held.on (· - (s.record c.frame).pages.length) (s.record c.frame).source)) ∧
    (∀ c older, e.reset = none → s.store.freeRecs = [] → s.mgmt.cache = c :: older → older.length < 8 →
      older.all (fun x => x.requester != e.requester) = true → (s.record c.frame).refs = 1 →
      s.onBacklog c.frame = false → (s.record c.frame).state ≠ .filling → n ≤ s.store.freePages.length →
      s.store.held.get .i + n ≤ s.quota .i → s.roomy →
      ∃ t : State, exec .responseHandover s = .next t ∧ t.mgmt.executor = .idle ∧ t.mgmt.queue = more ∧
        t.mgmt.cache = older ++ [{ requester := e.requester, id := e.id, frame := c.frame }] ∧ t.mgmt.stats = stats) ∧
    (e.reset = none → s.mgmt.cache = [] → s.lacksRoom n →
      ∃ t : State, exec .responseHandover s = .next t ∧ t.mgmt.executor = .idle ∧ t.mgmt.queue = more ∧
        t.mgmt.cache = [] ∧ t.mgmt.stats = { stats with responsesDropped := satInc s.mgmt.stats.responsesDropped } ∧
        (s.events.records.length < 32 →
          ∃ x ∈ t.events.records, x.kind = .responseDropped ∧ x.detail = some (e.requester.setWidth 16)))

/-- A reset recorded by a RESET_NODE becomes pending at the end of its request, watching the response the hand-over placed; with
none placed, or with the response dropped (R161), it is performed at once, as at RESET_LIMIT_EXPIRY (R163, R164). When the
watched response leaves it is performed at that event: completed by its ACK, at the end of an acknowledged copy, or by the
device taking its last byte; discarded by the residence check at a retry, at either selection or at the UP event; given up under
DROP; completed or flushed at a link-down. RELEASE_PORT and PORT_ENABLE_WRITE cannot be taken then, because the executor takes
no request (R163). And after no event is a reset left due: pending with nothing watched (R164). That it is performed at the end
of the command in which the response leaves, before a selection goes on, is the model's reading (log 24). That a hand-over is
one event with the admission before it is the model's choice (log 36). -/
def Obligations.PendingResetIsPerformed : Prop :=
  (∀ (c : Instr) (s t : State), s.resetDue = false → exec c s = .next t → t.resetDue = false) ∧
  (∀ (s : State) (e : Execution) (scope : ResetScope) (r : Nat) (free : List Nat) (n : Nat),
      s.mgmt.executor = .executing e → e.todo = [] → e.reset = some scope → s.store.freeRecs = r :: free →
      n = pagesNeeded (responsePayload e.id e.malformed e.done).length → n ≤ s.store.freePages.length →
      s.store.held.get .i + n ≤ s.quota .i → (s.store.watermark = .low ∨ n + 34 ≤ s.store.freePages.length) →
      (∀ y, s.routeByDest e.requester = some y → s.canPlace y 0 = true →
        ∃ t : State, exec .responseHandover s = .next t ∧
          t.mgmt.executor = .resetPending { scope := scope, watched := some (y, r) } ∧
          t.queues y = (s.queues y).push 0 r ∧ t.steer = s.steer ∧ t.params = s.params ∧ t.session = s.session) ∧
      ((∀ y, s.routeByDest e.requester = some y → s.canPlace y 0 = false) →
        ∃ u : State, exec .responseHandover s = exec .resetLimitExpiry u ∧
          u.mgmt.executor = .resetPending { scope := scope, watched := none } ∧ (∀ y, u.queues y = s.queues y) ∧
          u.steer = s.steer ∧ u.params = s.params ∧ u.session = s.session ∧ u.numbering = s.numbering)) ∧
  (∀ (s : State) (x : Execution) (scope : ResetScope) (n : Nat),
      s.mgmt.executor = .executing x → x.todo = [] → x.reset = some scope → s.mgmt.cache = [] →
      n = pagesNeeded (responsePayload x.id x.malformed x.done).length → s.lacksRoom n → s.roomy →
      s.events.records ≠ [] →
      ∃ u : State, exec .responseHandover s = exec .resetLimitExpiry u ∧
        u.mgmt.executor = .resetPending { scope := scope, watched := none } ∧ u.mgmt.cache = [] ∧
        u.mgmt.stats.responsesDropped = satInc s.mgmt.stats.responsesDropped ∧
        u.events = (s.raiseEvent .responseDropped none (some (x.requester.setWidth 16))).events ∧
        (∀ y, u.queues y = s.queues y) ∧ u.steer = s.steer ∧ u.params = s.params ∧ u.session = s.session ∧
        u.numbering = s.numbering) ∧
  (∀ (s : State) (e : Entry) (scope : ResetScope) (y : Port) (c : Instr),
      s.mgmt.executor = .resetPending { scope := scope, watched := some (y, e.frame) } → s.roomy →
      (∃ p, y = portOf p ∧ (s.tx p).inFlight = some e ∧
          (c = .ackReceived p (s.tx p).txSeq ∧ s.hearsPlainly p ∧
              ((s.tx p).state = .awaitingAck ∨ (s.tx p).state = .retryWait ∨ (s.tx p).state = .idle) ∨
            c = .copyEofSent p ∧ (s.tx p).state = .sending ∧ (s.tx p).acked = true ∨
            c = .retryWaitExpiry p ∧ (s.tx p).state = .retryWait ∧ (s.tx p).timer.isSome = true ∧ s.stale e.frame)) ∨
        (∃ k, y = .l ∧ c = .localEgressByte ∧ s.loc.egress = .transfer e k ∧ (s.record e.frame).size ≤ k + 1) →
      ∃ u : State, exec c s = exec .resetLimitExpiry u ∧ u.mgmt = s.unwatched scope ∧
        u.queues y = (s.queues y).without e ∧ (∀ z, z ≠ y → u.queues z = s.queues z) ∧
        (∀ p, y = portOf p → u.tx p = (s.tx p).vacated ∧ u.loc.egress = s.loc.egress ∧
          (u.trunk p).stats =
            if c = .retryWaitExpiry p then
              { (s.trunk p).stats with residenceDiscards := satInc (s.trunk p).stats.residenceDiscards }
            else (s.trunk p).stats) ∧
        (y = .l → u.loc.egress = .idle ∧ (∀ p, u.tx p = s.tx p) ∧
          u.loc.stats = { s.loc.stats with framesOut := satInc s.loc.stats.framesOut }) ∧
        u.steer = s.steer ∧ u.numbering = s.numbering ∧ u.params = s.params ∧ u.session = s.session ∧
        u.meters = s.meters ∧ u.events = s.events ∧ u.store.mem = s.store.mem) ∧
  (∀ (s : State) (e : Entry) (scope : ResetScope) (y : Port) (c : Instr) (olds more : List Entry),
      s.mgmt.executor = .resetPending { scope := scope, watched := some (y, e.frame) } → s.roomy →
      (s.queues y).entries = olds ++ e :: more → (∀ x ∈ olds, s.stale x.frame ∧ x.frame ≠ e.frame) → s.stale e.frame →
      (∃ p, y = portOf p ∧ c = .txSelect p ∧ (s.tx p).state = .idle ∧ (s.tx p).inFlight = none ∧
          s.enabled p = true ∧ (s.trunk p).link.up = true) ∨
        y = .l ∧ c = .localEgressSelect ∧ s.loc.egress = .idle →
      ∃ u : State, exec c s = exec .resetLimitExpiry u ∧ u.mgmt = s.unwatched scope ∧
        (u.queues y).entries = more ∧ (∀ z, z ≠ y → u.queues z = s.queues z) ∧ (∀ p, u.tx p = s.tx p) ∧
        u.loc.egress = s.loc.egress ∧
        (∀ p, y = portOf p → (u.trunk p).stats =
          { (s.trunk p).stats with
            residenceDiscards := raisedBy (s.trunk p).stats.residenceDiscards (olds.length + 1) }) ∧
        (y = .l → u.loc.stats =
          { s.loc.stats with residenceDiscards := raisedBy s.loc.stats.residenceDiscards (olds.length + 1) }) ∧
        u.steer = s.steer ∧ u.numbering = s.numbering ∧ u.params = s.params ∧ u.session = s.session ∧
        u.meters = s.meters ∧ u.events = s.events ∧ u.store.mem = s.store.mem) ∧
  (∀ (s : State) (e : Entry) (scope : ResetScope) (p : TrunkPort) (c : Instr) (kind : EventKind) (detail : Option Half)
      (stats : TrunkStats),
      s.mgmt.executor = .resetPending { scope := scope, watched := some (portOf p, e.frame) } → s.roomy →
      s.events.records ≠ [] → (s.tx p).inFlight = some e →
      (kind = .retryExhausted ∧ detail = some 2 ∧ (s.tx p).state = .awaitingAck ∧ s.retryPolicy p = .drop ∧
            s.retryLimit p ≤ (s.tx p).attempts + 1 ∧
            stats = { (s.trunk p).stats with retryExhaustions := satInc (s.trunk p).stats.retryExhaustions } ∧
            (c = .ackWaitExpiry p ∧ (s.tx p).timer.isSome = true ∨
              c = .nakReceived p (s.tx p).txSeq .check ∧ s.hearsPlainly p) ∨
        kind = .linkUp ∧ detail = none ∧ (s.tx p).state = .idle ∧ c = .idleReceived p ∧ s.enabled p = true ∧
            (s.trunk p).link.up = false ∧ (s.trunk p).link.run + 1 = 64 ∧ s.stale e.frame ∧
            stats = { (s.trunk p).stats with residenceDiscards := satInc (s.trunk p).stats.residenceDiscards }) →
      ∃ u : State, exec c s = exec .resetLimitExpiry u ∧ u.mgmt = s.unwatched scope ∧
        u.tx p = (s.tx p).vacated ∧ (u.trunk p).queues = (s.trunk p).queues.without e ∧ (u.trunk p).stats = stats ∧
        u.trunk (otherPort p) = s.trunk (otherPort p) ∧ u.loc.queues = s.loc.queues ∧ u.loc.egress = s.loc.egress ∧
        u.events = (s.raiseEvent kind (some (portOf p)) detail).events ∧ u.steer = s.steer ∧
        u.numbering = s.numbering ∧ u.params = s.params ∧ u.session = s.session ∧ u.meters = s.meters ∧
        u.store.mem = s.store.mem) ∧
  (∀ (s : State) (e : Entry) (scope : ResetScope) (p : TrunkPort),
      s.mgmt.executor = .resetPending { scope := scope, watched := some (portOf p, e.frame) } → s.enabled p = true →
      (s.trunk p).link.silence = true → (s.trunk p).link.up = true → (s.tx p).sound = true → s.roomy →
      s.events.records ≠ [] → (∀ f, (s.trunk p).rx.reception = .header f → f.frame = none) →
      ((s.tx p).inFlight = some e ∧ (s.tx p).leavesAtDown s.params.linkDownPolicy = true ∨
        s.params.linkDownPolicy = .flush ∧ e ∈ (s.trunk p).queues.entries ∧
          ¬((s.tx p).state = .held ∧ (s.tx p).inFlight = some e)) →
      ∃ u : State, exec (.silenceTimeout p) s = exec .resetLimitExpiry u ∧
        State.wentDown { s with mgmt := s.unwatched scope } p true { (s.trunk p).rx with reception := .waitSof }
          (match (s.trunk p).rx.reception with
            | .waitSof => (s.trunk p).stats
            | .header _ => { (s.trunk p).stats with headerErrors := satInc (s.trunk p).stats.headerErrors }
            | .payload _ | .check _ =>
              { (s.trunk p).stats with checkFailures := satInc (s.trunk p).stats.checkFailures })
          u)

/-! ### The local port -/

/-- LOCAL_INGRESS_BYTE. Header bytes are kept up to the ninth; one marked last there is refused, HEADER_ERROR (R177). The tenth
judges the frame, the first case deciding: refused HEADER_ERROR, NOT_NUMBERED or LENGTH_MISMATCH; WAIT_ROOM with no admission
asked while a reset is pending; else admission is asked with Source rewritten and Seq 0, and it is granted (the prepared header
stored, PAYLOAD, or backlog L at once for Length 0), waits, or is refused OVER_QUOTA (R177, R178). A payload byte of an admitted
frame is stored and the last one hands the frame to backlog L; a last mark early or late gives the record back and is refused
LENGTH_MISMATCH (R179, R180). In DISCARD bytes are taken up to the last, in WAIT_ROOM none is taken (R176, R180). That the
release of a refused frame's record comes before LOCAL_REFUSED, and that the byte which shows a length mismatch is not written,
are the model's choices (log 28, log 34). -/
def Obligations.LocalIngressTakesBytes : Prop :=
  ∀ (s : State) (b : Byte),
    (s.loc.ingress = .idle → s.resetPending = false →
      exec (.localIngressByte b false) s = .next { s with loc := { s.loc with ingress := .header [b] } } ∧
      exec (.localIngressByte b true) s = .next (s.localRefused 2 true)) ∧
    (∀ h, s.loc.ingress = .header h → h.length < 9 →
      exec (.localIngressByte b false) s = .next { s with loc := { s.loc with ingress := .header (h ++ [b]) } } ∧
      exec (.localIngressByte b true) s = .next (s.localRefused 2 true)) ∧
    (∀ taken last h len prepared n, s.loc.ingress = .header taken → taken.length = 9 → h = parseHeader (taken ++ [b]) →
      len = h.length.toNat → n = pagesNeeded len →
      prepared = encodeHeader { h with
        source := match s.numbering with | .numbered own _ => own | .unnumbered => 255
        seq := 0 } →
      (kindOf h.kind = none ∨ h.zeros ≠ 0 ∨ 1025 ≤ len ∨ kindOf h.kind = some .enum ∨ kindOf h.kind = some .enumEnd →
        exec (.localIngressByte b last) s = .next (s.localRefused 2 last)) ∧
      (∀ k, kindOf h.kind = some k → k.ordinary = true → h.zeros = 0 → len ≤ 1024 →
        (s.numbering = .unnumbered → k ≠ .mreq → exec (.localIngressByte b last) s = .next (s.localRefused 1 last)) ∧
        ((∃ own up, s.numbering = .numbered own up) ∨ k = .mreq →
          (¬(last = true ↔ len = 0) → exec (.localIngressByte b last) s = .next (s.localRefused 3 last)) ∧
          ((last = true ↔ len = 0) →
            (s.resetPending = true →
              exec (.localIngressByte b last) s = .next { s with loc := { s.loc with ingress := .waitRoom prepared 0 } }) ∧
            (s.resetPending = false → s.quota .l < n →
              exec (.localIngressByte b last) s = .next (s.localRefused 4 last)) ∧
            (s.resetPending = false → n ≤ s.quota .l →
              s.store.freeRecs = [] ∨ s.store.freePages.length < n + 34 ∨ s.quota .l < s.store.held.get .l + n →
              exec (.localIngressByte b last) s = .next { s with loc := { s.loc with ingress := .waitRoom prepared 0 } }) ∧
            (∀ r rest, s.resetPending = false → s.store.freeRecs = r :: rest → n + 34 ≤ s.store.freePages.length →
              s.store.held.get .l + n ≤ s.quota .l →
              ∃ t : State, exec (.localIngressByte b last) s = .next t ∧
                t.store.freeRecs = rest ∧ t.store.freePages = s.store.freePages.drop n ∧
                t.store.held = s.store.held.on (· + n) .l ∧
                t.record r =
                  { state := if len = 0 then .waiting else .filling, source := .l, size := 10 + len
                    pages := s.store.freePages.take n, arrival := s.nodeTime, refs := 0 } ∧
                (∀ i, i < 10 → t.frameByte r i = byteAt prepared i) ∧
                t.loc =
                  { s.loc with
                    ingress := if len = 0 then .idle else .payload r 0 len
                    stats :=
                      if len = 0 then { s.loc.stats with framesIn := satInc s.loc.stats.framesIn } else s.loc.stats } ∧
                t.steer =
                  { s.steer with backlogL := if len = 0 then s.steer.backlogL ++ [r] else s.steer.backlogL } ∧
                t.events = s.events ∧ t.trunkA = s.trunkA ∧ t.trunkB = s.trunkB ∧ t.mgmt = s.mgmt))))) ∧
    (∀ r k len a, s.loc.ingress = .payload r k len → 10 + k < (s.record r).size →
      (s.record r).addr (10 + k) = some a →
      (k + 1 < len →
        exec (.localIngressByte b false) s = .next { s with
          store := { s.store with mem := Memory.write s.store.mem a b }
          loc := { s.loc with ingress := .payload r (k + 1) len } }) ∧
      (k + 1 = len →
        exec (.localIngressByte b true) s = .next { s with
          store :=
            { s.store with
              mem := Memory.write s.store.mem a b
              recs := Sparse.set FrameRecord.blank s.store.recs r { s.record r with state := .waiting, refs := 0 } }
          steer := { s.steer with backlogL := s.steer.backlogL ++ [r] }
          loc := { s.loc with ingress := .idle, stats := { s.loc.stats with framesIn := satInc s.loc.stats.framesIn } } })) ∧
    (∀ r k len last, s.loc.ingress = .payload r k len → s.roomy → (last = true ↔ k + 1 < len) →
      ∃ u : State, s.gaveBack (some r) u ∧ exec (.localIngressByte b last) s = .next (u.localRefused 3 last)) ∧
    (s.loc.ingress = .discard →
      exec (.localIngressByte b false) s = .next s ∧
      exec (.localIngressByte b true) s = .next { s with loc := { s.loc with ingress := .idle } }) ∧
    (∀ h n last, s.loc.ingress = .waitRoom h n → exec (.localIngressByte b last) s = .next s)

/-- LOCAL_ADMISSION_RETRY: a frame in WAIT_ROOM asks again at an announced release, with the same Length, and R178's table
decides. Granted from source L, its prepared header is stored with the arrival time now, and the state becomes PAYLOAD, or the
frame is handed to backlog L at once where its Length is 0 (R179). A need greater than QUOTA_L, lowered while it waited, refuses
the frame: OVER_QUOTA, and DISCARD, or IDLE where its last byte has been taken (R180). Otherwise it waits on. While a node reset
is pending nothing is asked (R34, R178, R183). The count of announced releases is the model's own (log 10). -/
def Obligations.LocalAdmissionRetryAsks : Prop :=
  ∀ (s : State) (h : List Byte) (k len n : Nat), s.loc.ingress = .waitRoom h (k + 1) →
    len = (parseHeader h).length.toNat → n = pagesNeeded len →
    (s.resetPending = true → exec .localAdmissionRetry s = .next s) ∧
    (s.resetPending = false →
      (s.quota .l < n → exec .localAdmissionRetry s = .next (s.localRefused 4 (decide (len = 0)))) ∧
      (n ≤ s.quota .l →
        s.store.freeRecs = [] ∨ s.store.freePages.length < n + 34 ∨ s.quota .l < s.store.held.get .l + n →
        exec .localAdmissionRetry s = .next { s with loc := { s.loc with ingress := .waitRoom h k } }) ∧
      (∀ r rest, s.store.freeRecs = r :: rest → n + 34 ≤ s.store.freePages.length →
        s.store.held.get .l + n ≤ s.quota .l →
        ∃ t : State, exec .localAdmissionRetry s = .next t ∧ t.store.freeRecs = rest ∧
          t.store.freePages = s.store.freePages.drop n ∧ t.store.held = s.store.held.on (· + n) .l ∧
          t.record r =
            { state := if len = 0 then .waiting else .filling, source := .l, size := 10 + len
              pages := s.store.freePages.take n, arrival := s.nodeTime, refs := 0 } ∧
          (h.length = 10 → ∀ i, i < 10 → t.frameByte r i = byteAt h i) ∧
          t.loc =
            { s.loc with
              ingress := if len = 0 then .idle else .payload r 0 len
              stats := if len = 0 then { s.loc.stats with framesIn := satInc s.loc.stats.framesIn } else s.loc.stats } ∧
          t.steer = { s.steer with backlogL := if len = 0 then s.steer.backlogL ++ [r] else s.steer.backlogL } ∧
          t.events = s.events ∧ t.trunkA = s.trunkA ∧ t.trunkB = s.trunkB ∧ t.mgmt = s.mgmt))

/-- LOCAL_EGRESS_SELECT starts the transfer of the most urgent head that passes the residence check; heads that fail it leave,
in order, each counted as a residence discard of the local port and its reference dropped, which at the last one gives the
record back (R181). LOCAL_EGRESS_BYTE lets the device take the byte on the lines: a byte before the last moves the transfer on,
the byte marked abort ends ABORTING (R176, R181, R184), and the byte marked last, abort low, completes the transfer (R182). A
watched response that leaves is PendingResetIsPerformed's. The record of the byte taken is the model's own (log 8). -/
def Obligations.LocalEgressTransfers : Prop :=
  (∀ s : State, s.resetDue = false →
      (∀ e more, s.loc.egress = .idle → s.loc.queues.entries = e :: more →
        (s.params.residenceLimit = 0 ∨ (s.nodeTime - (s.record e.frame).arrival).toNat ≤ s.params.residenceLimit) →
        exec .localEgressSelect s = .next { s with loc := { s.loc with egress := .transfer e 0 } }) ∧
      (∀ e k, s.loc.egress = .transfer e k → k + 1 < (s.record e.frame).size →
        exec .localEgressByte s = .next { s with
          loc :=
            { s.loc with
              egress := .transfer e (k + 1)
              lastOut := some { data := byteAt (sentImage (s.frameBytes e.frame) 0) k, last := false, abort := false } } }) ∧
      (∀ b, s.loc.egress = .aborting b →
        exec .localEgressByte s = .next { s with
          loc := { s.loc with egress := .idle, lastOut := some { data := b, last := true, abort := true } } })) ∧
  (∀ (s : State) (olds more : List Entry), s.loc.egress = .idle → s.loc.queues.entries = olds ++ more →
      (∀ x ∈ olds, s.stale x.frame ∧ s.watches .l x.frame = false) → (∀ x, more.head? = some x → ¬s.stale x.frame) →
      s.roomy → s.resetDue = false →
      ∃ t : State, exec .localEgressSelect s = .next t ∧ t.loc.queues.entries = more ∧
        t.loc.egress = (match more with | [] => .idle | e :: _ => .transfer e 0) ∧
        t.loc.stats =
          { s.loc.stats with residenceDiscards := raisedBy s.loc.stats.residenceDiscards olds.length } ∧
        t.trunkA = s.trunkA ∧ t.trunkB = s.trunkB ∧ t.steer = s.steer ∧ t.mgmt = s.mgmt ∧ t.events = s.events ∧
        t.store.mem = s.store.mem ∧
        ((olds.map Entry.frame).Nodup →
          (∀ x ∈ olds, (s.record x.frame).refs = 1 ∧ s.onBacklog x.frame = false ∧
            (s.record x.frame).state ≠ .filling) →
          t.store.freeRecs = s.store.freeRecs ++ olds.map Entry.frame ∧
            t.store.freePages = s.store.freePages ++ olds.flatMap (fun x => (s.record x.frame).pages)) ∧
        ((olds.map Entry.frame).Nodup → (∀ x ∈ olds, 2 ≤ (s.record x.frame).refs) →
          t.store.freeRecs = s.store.freeRecs ∧
            ∀ x ∈ olds, (t.record x.frame).refs + 1 = (s.record x.frame).refs)) ∧
  (∀ (s : State) (e : Entry) (k : Nat), s.loc.egress = .transfer e k → (s.record e.frame).size ≤ k + 1 → s.roomy →
      s.resetDue = false → s.watches .l e.frame = false →
      ∃ t : State, exec .localEgressByte s = .next t ∧ t.loc.egress = .idle ∧
        t.loc.lastOut =
          some { data := byteAt (sentImage (s.frameBytes e.frame) 0) k, last := true, abort := false } ∧
        t.loc.queues = s.loc.queues.without e ∧
        t.loc.stats = { s.loc.stats with framesOut := satInc s.loc.stats.framesOut } ∧ t.trunkA = s.trunkA ∧
        t.trunkB = s.trunkB ∧ t.steer = s.steer ∧ t.mgmt = s.mgmt ∧ t.events = s.events ∧
        t.store.mem = s.store.mem)

/-! ### Layouts and the store -/

/-- Reading back the bytes an entry is read as gives the entry: no bit of a Steering Table or Channel Map entry is lost by its
layout (R104). A header built by the node parses back to its fields, carries a check its own receiver accepts, and keeps both
when its Seq is set for a copy (R70, R99, R100). -/
def Obligations.TableEntriesAndHeadersRoundTrip : Prop :=
  (∀ e : SteerEntry, decodeEntry (encodeEntry e) = some e) ∧ (∀ m : MapEntry, decodeMapEntry (encodeMapEntry m) = m) ∧
  ∀ (h : Header) (q : LinkSeq) (payload : List Byte), fieldsBad h = false →
    parseHeader (encodeHeader h) = h ∧ Machine.headerBad (encodeHeader h) = false ∧
    parseHeader (sentImage (encodeHeader h ++ payload) q) = { h with seq := q } ∧
    Machine.headerBad ((sentImage (encodeHeader h ++ payload) q).take 10) = false

/-- The store (R30 to R32, R38, R41). An admission is granted exactly where a record is free, the free pages cover the pages needed
and, but for source I, 34 beside them, and the source stays within its quota; the head record and the head pages are then handed out
as R30 says, and else nothing changes and the refusal says whether the pages needed exceed the quota alone. A release returns pages
and record to the tails. After each the watermark is examined: STORE_LOW is raised where it is ARMED and fewer than 34 pages are
left, and it is ARMED again from LOW at 51. So a RESPONSE_HANDOVER whose response leaves fewer than 34 pages raises STORE_LOW, and a
LOCAL_EGRESS_BYTE that ends the last hold of a frame arms the watermark at 51. Admission and release keep every page either free or
held once (R26). The releases announced to local ingress are counted, the model's own count (log 10). -/
def Obligations.AdmissionReleaseAndWatermark : Prop :=
  (∀ s : State, s.pagesBalanced → s.store.freeRecs.Nodup → (∀ r ∈ s.store.freeRecs, r < 256) →
    (∀ src len r t, s.takeRoom src len = some (r, t) → t.pagesBalanced ∧ t.store.freeRecs.Nodup) ∧
    (∀ r, r < 256 → r ∉ s.store.freeRecs →
      (s.returnRoom r).pagesBalanced ∧ (s.returnRoom r).store.freeRecs.Nodup)) ∧
  (∀ (s : State) (src : Source) (len n keep : Nat), n = (10 + len + 63) / 64 → keep = (if src = .i then 0 else 34) →
    (∀ r free, s.store.freeRecs = r :: free → n + keep ≤ s.store.freePages.length →
      s.store.held.get src + n ≤ s.quota src →
      ∃ t, s.askRoom src len = .granted r t ∧
        State.watermarkMoved
          { s with
            store :=
              { s.store with
                freeRecs := free, freePages := s.store.freePages.drop n, held := s.store.held.on (· + n) src
                recs := Sparse.set FrameRecord.blank s.store.recs r
                  { state := .filling, source := src, size := 10 + len, pages := s.store.freePages.take n
                    arrival := s.nodeTime, refs := 0 } } }
          t) ∧
    (s.store.freeRecs = [] ∨ s.store.freePages.length < n + keep ∨ s.quota src < s.store.held.get src + n →
      s.askRoom src len = .refused (decide (s.quota src < n)))) ∧
  (∀ (s : State) (r : Nat), ∃ t : State,
    State.watermarkMoved
      { s with
        store :=
          { s.store with
            freePages := s.store.freePages ++ (s.record r).pages, freeRecs := s.store.freeRecs ++ [r]
            held := s.store.held.on (· - (s.record r).pages.length) (s.record r).source } }
      t ∧
    s.release r =
      match t.loc.ingress with
      | .waitRoom h k =>
        if t.resetPending then t else { t with loc := { t.loc with ingress := .waitRoom h (k + 1) } }
      | _ => t) ∧
  (∀ (s : State) (e : Execution) (n : Nat) (r : Nat) (free : List Nat), s.mgmt.executor = .executing e → e.todo = [] →
    e.reset = none → n = pagesNeeded (responsePayload e.id e.malformed e.done).length → s.store.freeRecs = r :: free →
    n ≤ s.store.freePages.length → s.store.held.get .i + n ≤ s.quota .i → s.store.watermark = .armed →
    s.store.freePages.length < n + 34 → s.events.records ≠ [] → s.events.records.length < 32 →
    ∃ t : State, exec .responseHandover s = .next t ∧
      t.events.records = s.events.records ++
        [{ seq := s.events.nextSeq, kind := .storeLow, port := none, time := s.nodeTime, detail := none }]) ∧
  (∀ (s : State) (e : Entry) (k : Nat), s.loc.egress = .transfer e k → (s.record e.frame).size ≤ k + 1 →
    (s.record e.frame).refs = 1 → s.onBacklog e.frame = false → (s.record e.frame).state ≠ .filling →
    s.store.watermark = .low → s.resetPending = false →
    ∃ t : State, exec .localEgressByte s = .next t ∧ t.events = s.events ∧
      t.store.freeRecs = s.store.freeRecs ++ [e.frame] ∧
      t.store.watermark =
        (if 51 ≤ s.store.freePages.length + (s.record e.frame).pages.length then .armed else .low))

/-- Placements (R21, R64). A port takes a delivery where its queue of the class holds fewer entries than its depth and it is no
trunk port whose link is DOWN under FLUSH; the record then stands at the tail of that queue, QUEUED, with one more reference, and
otherwise only "queue-full skips" of that port is raised. The internal route sends a response or a notice to the local port for own
station and 255, Upstream for a lower and Downstream for a higher Destination, in class 0; an UNNUMBERED node places one for 255 at
the local port and no other (R23). -/
def Obligations.PlacementsAndInternalRoute : Prop :=
  (∀ (s : State) (q : Port) (c : TrafficClass) (r depth : Nat) (open_ : Prop),
      depth = (match q with | .a => s.params.queueDepthA | .b => s.params.queueDepthB | .l => s.params.queueDepthL) →
      (open_ ↔ ((s.queues q).get c).length < depth ∧
        ∀ p, q = portOf p → (s.trunk p).link.up = true ∨ s.params.linkDownPolicy = .keep) →
      (s.canPlace q c = true ↔ open_) ∧
      (open_ → ∃ t : State, s.place q c r = t ∧ t.queues q = (s.queues q).push c r ∧
        (∀ y, y ≠ q → t.queues y = s.queues y) ∧
        t.record r = { s.record r with state := .queued, refs := (s.record r).refs + 1 } ∧
        (∀ n, n ≠ r → t.record n = s.record n) ∧
        (∀ p, (t.trunk p).stats = (s.trunk p).stats ∧ (t.trunk p).link = (s.trunk p).link ∧ t.tx p = s.tx p) ∧
        t.loc.stats = s.loc.stats ∧ t.events = s.events ∧ t.mgmt = s.mgmt ∧ t.steer = s.steer ∧
        t.store.mem = s.store.mem) ∧
      (¬open_ →
        (∀ p, q = portOf p →
          s.place q c r = s.setTrunk p { s.trunk p with
            stats := { (s.trunk p).stats with queueFullSkips := satInc (s.trunk p).stats.queueFullSkips } }) ∧
        (q = .l →
          s.place q c r = { s with
            loc :=
              { s.loc with
                stats := { s.loc.stats with queueFullSkips := satInc s.loc.stats.queueFullSkips } } }))) ∧
  (∀ (s : State) (dest : Station) (r : Nat) (target : Option Port),
      ((∃ own up, s.numbering = .numbered own up ∧
          ((dest = own ∨ dest = 255) ∧ target = some .l ∨
            dest.toNat < own.toNat ∧ target = some (portOf up) ∨
            own.toNat < dest.toNat ∧ dest ≠ 255 ∧ target = some (portOf (otherPort up)))) ∨
        s.numbering = .unnumbered ∧ (dest = 255 ∧ target = some .l ∨ dest ≠ 255 ∧ target = none)) →
      s.routeByDest dest = target ∧
      s.placeByDest dest r = (match target with | some q => s.place q 0 r | none => s))

/-- Every step keeps the books of the frame store (`State.StoreSound`): every page free or held once and no record number free
twice (R26, R39), held pages per source (R40), reference counts equal to the holders (R29), record states (R28), a record at most
once among the queues of a port (R63), and frames in flight and in transfer among their port's entries (R66, R181). The receivers
are sound, so that a frame in HEADER has no record (R44). -/
def Obligations.StepKeepsFrameStoreSound : Prop :=
  ∀ s t : State, s.StoreSound → s.receiversSound = true → step s = .next t → t.StoreSound

end
end

