-- ==== Sys2Proof/Laws/Sparse.lean ====
section
/-! SUPPORT. The laws of sparse tables and of the pages' bytes: a read after a write to the same key, a write leaves every
other key alone, and every operation keeps the canonical form. -/

namespace Sys2Proof.Machine

variable {α : Type}

/-! ### Reads after writes -/

@[simp] theorem Sparse.get_nil (d : α) (i : Nat) : Sparse.get d [] i = d := rfl

theorem Sparse.get_cons (d : α) (k : Nat) (v : α) (t : Sparse α) (i : Nat) :
    Sparse.get d ((k, v) :: t) i = if k = i then v else Sparse.get d t i := rfl

theorem Sparse.erase_cons (k : Nat) (v : α) (t : Sparse α) (i : Nat) :
    Sparse.erase ((k, v) :: t) i = if k = i then Sparse.erase t i else (k, v) :: Sparse.erase t i := by
  by_cases h : k = i <;> simp [Sparse.erase, h]

theorem Sparse.get_erase (d : α) (l : Sparse α) (i j : Nat) :
    Sparse.get d (Sparse.erase l i) j = if j = i then d else Sparse.get d l j := by
  induction l with
  | nil => simp [Sparse.erase]
  | cons e t ih =>
    obtain ⟨k, v⟩ := e
    rw [Sparse.erase_cons]
    by_cases h : k = i
    · rw [if_pos h, ih, Sparse.get_cons]
      by_cases hj : j = i
      · simp [hj]
      · rw [if_neg hj, if_neg hj, if_neg (fun hk => hj (hk.symm.trans h))]
    · rw [if_neg h, Sparse.get_cons, Sparse.get_cons, ih]
      by_cases hk : k = j
      · rw [if_pos hk, if_pos hk, if_neg (fun hj => h (hk.trans hj))]
      · rw [if_neg hk, if_neg hk]

theorem Sparse.get_insert (d : α) (i : Nat) (v : α) (l : Sparse α) (h : ∀ e ∈ l, e.1 ≠ i) (j : Nat) :
    Sparse.get d (Sparse.insert i v l) j = if j = i then v else Sparse.get d l j := by
  induction l with
  | nil =>
    simp only [Sparse.insert, Sparse.get_cons, Sparse.get_nil]
    by_cases hj : j = i
    · simp [hj]
    · rw [if_neg (fun h => hj h.symm), if_neg hj]
  | cons e t ih =>
    obtain ⟨k, w⟩ := e
    have hk : k ≠ i := h (k, w) (by simp)
    have ih := ih (fun e he => h e (by simp [he]))
    by_cases hi : i < k
    · simp only [Sparse.insert, if_pos hi, Sparse.get_cons]
      by_cases hj : j = i
      · simp [hj]
      · rw [if_neg (fun h => hj h.symm), if_neg hj]
    · simp only [Sparse.insert, if_neg hi, Sparse.get_cons, ih]
      by_cases hj : j = i
      · simp [hj, hk]
      · simp [hj]

theorem Sparse.ne_of_mem_erase {l : Sparse α} {i : Nat} {e : Nat × α} (h : e ∈ Sparse.erase l i) : e.1 ≠ i := by
  simpa using (List.mem_filter.1 h).2

/-- What a table reads after a write, at every key. -/
theorem Sparse.get_set [DecidableEq α] (d : α) (l : Sparse α) (i : Nat) (v : α) (j : Nat) :
    Sparse.get d (Sparse.set d l i v) j = if j = i then v else Sparse.get d l j := by
  by_cases h : v = d
  · rw [Sparse.set, if_pos h, Sparse.get_erase, h]
  · rw [Sparse.set, if_neg h, Sparse.get_insert d i v _ (fun _ he => Sparse.ne_of_mem_erase he), Sparse.get_erase]
    by_cases hj : j = i <;> simp [hj]

@[simp] theorem Sparse.get_set_same [DecidableEq α] (d : α) (l : Sparse α) (i : Nat) (v : α) :
    Sparse.get d (Sparse.set d l i v) i = v := by simp [Sparse.get_set]

theorem Sparse.get_set_other [DecidableEq α] (d : α) (l : Sparse α) {i j : Nat} (v : α) (h : j ≠ i) :
    Sparse.get d (Sparse.set d l i v) j = Sparse.get d l j := by simp [Sparse.get_set, h]

/-- A key below every listed key reads as the default. -/
theorem Sparse.get_of_below (d : α) (l : Sparse α) (k : Nat) (h : ∀ e ∈ l, k < e.1) : Sparse.get d l k = d := by
  induction l with
  | nil => rfl
  | cons e t ih =>
    obtain ⟨m, w⟩ := e
    have hm : k < m := h (m, w) (by simp)
    rw [Sparse.get_cons, if_neg (by omega)]
    exact ih (fun e he => h e (by simp [he]))

/-- What a table reads after every value is passed through `f`, for distinct keys. -/
theorem Sparse.get_mapValues [DecidableEq α] (d : α) (f : α → α) (hf : f d = d) (l : Sparse α) (h : Sparse.rising l = true)
    (j : Nat) : Sparse.get d (Sparse.mapValues d f l) j = f (Sparse.get d l j) := by
  induction l with
  | nil => simp [Sparse.mapValues, hf]
  | cons e t ih =>
    obtain ⟨k, v⟩ := e
    simp only [Sparse.rising, Bool.and_eq_true, List.all_eq_true, decide_eq_true_eq] at h
    have ih := ih h.2
    have ht : Sparse.get d t k = d := Sparse.get_of_below d t k h.1
    have hm : Sparse.mapValues d f ((k, v) :: t) =
        if f v = d then Sparse.mapValues d f t else (k, f v) :: Sparse.mapValues d f t := by
      by_cases hv : f v = d <;> simp [Sparse.mapValues, hv]
    rw [hm, Sparse.get_cons]
    by_cases hv : f v = d
    · rw [if_pos hv, ih]
      by_cases hj : k = j
      · rw [if_pos hj, ← hj, ht, hf, hv]
      · rw [if_neg hj]
    · rw [if_neg hv, Sparse.get_cons, ih]
      by_cases hj : k = j <;> simp [hj]

/-! ### The canonical form -/

theorem Sparse.rising_cons (k : Nat) (v : α) (t : Sparse α) :
    Sparse.rising ((k, v) :: t) = true ↔ (∀ e ∈ t, k < e.1) ∧ Sparse.rising t = true := by
  simp [Sparse.rising, List.all_eq_true]

theorem Sparse.rising_filter (l : Sparse α) (q : Nat × α → Bool) (h : Sparse.rising l = true) :
    Sparse.rising (l.filter q) = true := by
  induction l with
  | nil => rfl
  | cons e t ih =>
    obtain ⟨k, v⟩ := e
    rw [Sparse.rising_cons] at h
    by_cases hq : q (k, v) = true
    · rw [List.filter_cons_of_pos hq, Sparse.rising_cons]
      exact ⟨fun e he => h.1 e (List.mem_filter.1 he).1, ih h.2⟩
    · rw [List.filter_cons_of_neg hq]
      exact ih h.2

theorem Sparse.mem_insert {i : Nat} {v : α} {l : Sparse α} {e : Nat × α} (h : e ∈ Sparse.insert i v l) :
    e = (i, v) ∨ e ∈ l := by
  induction l with
  | nil => simpa [Sparse.insert] using h
  | cons x t ih =>
    obtain ⟨k, w⟩ := x
    by_cases hi : i < k
    · simpa [Sparse.insert, hi] using h
    · simp only [Sparse.insert, if_neg hi, List.mem_cons] at h
      rcases h with h | h
      · exact .inr (by simp [h])
      · rcases ih h with h | h
        · exact .inl h
        · exact .inr (by simp [h])

theorem Sparse.rising_insert (i : Nat) (v : α) (l : Sparse α) (hl : ∀ e ∈ l, e.1 ≠ i) (h : Sparse.rising l = true) :
    Sparse.rising (Sparse.insert i v l) = true := by
  induction l with
  | nil => rfl
  | cons x t ih =>
    obtain ⟨k, w⟩ := x
    have hr := (Sparse.rising_cons k w t).1 h
    have hk : k ≠ i := hl (k, w) (by simp)
    by_cases hi : i < k
    · simp only [Sparse.insert, if_pos hi, Sparse.rising_cons]
      refine ⟨fun e he => ?_, (Sparse.rising_cons k w t).1 h⟩
      rcases List.mem_cons.1 he with he | he
      · simp [he, hi]
      · exact Nat.lt_trans hi (hr.1 e he)
    · simp only [Sparse.insert, if_neg hi, Sparse.rising_cons]
      refine ⟨fun e he => ?_, ih (fun e he => hl e (by simp [he])) hr.2⟩
      rcases Sparse.mem_insert he with he | he
      · rw [he]; show k < i; omega
      · exact hr.1 e he

theorem Sparse.wf_iff [DecidableEq α] (d : α) (l : Sparse α) :
    Sparse.wf d l = true ↔ Sparse.rising l = true ∧ ∀ e ∈ l, e.2 ≠ d := by
  simp [Sparse.wf, List.all_eq_true]

theorem Sparse.wf_nil [DecidableEq α] (d : α) : Sparse.wf d ([] : Sparse α) = true := rfl

theorem Sparse.wf_erase [DecidableEq α] (d : α) (l : Sparse α) (i : Nat) (h : Sparse.wf d l = true) :
    Sparse.wf d (Sparse.erase l i) = true := by
  rw [Sparse.wf_iff] at h ⊢
  exact ⟨Sparse.rising_filter l _ h.1, fun e he => h.2 e (List.mem_filter.1 he).1⟩

/-- A write keeps the canonical form. -/
theorem Sparse.wf_set [DecidableEq α] (d : α) (l : Sparse α) (i : Nat) (v : α) (h : Sparse.wf d l = true) :
    Sparse.wf d (Sparse.set d l i v) = true := by
  have he := Sparse.wf_erase d l i h
  by_cases hv : v = d
  · rw [Sparse.set, if_pos hv]; exact he
  · rw [Sparse.set, if_neg hv]
    rw [Sparse.wf_iff] at he ⊢
    refine ⟨Sparse.rising_insert i v _ (fun _ hx => Sparse.ne_of_mem_erase hx) he.1, fun e hx => ?_⟩
    rcases Sparse.mem_insert hx with hx | hx
    · rw [hx]; exact hv
    · exact he.2 e hx

theorem Sparse.rising_map (l : Sparse α) (g : α → α) (h : Sparse.rising l = true) :
    Sparse.rising (List.map (fun e => (e.1, g e.2)) l) = true := by
  induction l with
  | nil => rfl
  | cons x t ih =>
    obtain ⟨k, v⟩ := x
    rw [Sparse.rising_cons] at h
    simp only [List.map_cons, Sparse.rising_cons]
    refine ⟨fun e he => ?_, ih h.2⟩
    obtain ⟨y, hy, rfl⟩ := List.mem_map.1 he
    exact h.1 y hy

/-- Passing every value through a function keeps the canonical form. -/
theorem Sparse.wf_mapValues [DecidableEq α] (d : α) (f : α → α) (l : Sparse α) (h : Sparse.wf d l = true) :
    Sparse.wf d (Sparse.mapValues d f l) = true := by
  rw [Sparse.wf_iff] at h ⊢
  refine ⟨Sparse.rising_filter _ _ (Sparse.rising_map l f h.1), fun e he => ?_⟩
  simpa using (List.mem_filter.1 he).2

/-! ### The pages' bytes -/

/-- What a byte reads after a write, at every address. -/
theorem Memory.read_write (m : Memory) (a : Nat) (b : Byte) (x : Nat) :
    Memory.read (Memory.write m a b) x = if x = a then b else Memory.read m x := Sparse.get_set _ _ _ _ _

@[simp] theorem Memory.read_write_same (m : Memory) (a : Nat) (b : Byte) : Memory.read (Memory.write m a b) a = b := by
  simp [Memory.read_write]

theorem Memory.read_write_other (m : Memory) {a x : Nat} (b : Byte) (h : x ≠ a) :
    Memory.read (Memory.write m a b) x = Memory.read m x := by simp [Memory.read_write, h]

/-- The one operation that writes memory keeps its canonical form. -/
theorem Memory.wf_write (m : Memory) (a : Nat) (b : Byte) (h : Memory.wf m = true) :
    Memory.wf (Memory.write m a b) = true := Sparse.wf_set _ _ _ _ h

/-- The memory after reset has the canonical form. -/
theorem Memory.wf_reset : Memory.wf State.reset.store.mem = true := rfl

end Sys2Proof.Machine
end

