-- ==== Sys2Proof/Laws/State.lean ====
section
/-! SUPPORT. One lemma per field per update of the state, each true by computation, so that no later proof unfolds a record
update; then what the updates leave of the parts they write. -/

namespace Sys2Proof.Machine

variable (s : State)

/-! ### setTrunk -/

@[simp] theorem State.setTrunk_nodeTime (p : TrunkPort) (x : Trunk) : (s.setTrunk p x).nodeTime = s.nodeTime := by cases p <;> rfl
@[simp] theorem State.setTrunk_store (p : TrunkPort) (x : Trunk) : (s.setTrunk p x).store = s.store := by cases p <;> rfl
@[simp] theorem State.setTrunk_loc (p : TrunkPort) (x : Trunk) : (s.setTrunk p x).loc = s.loc := by cases p <;> rfl
@[simp] theorem State.setTrunk_steer (p : TrunkPort) (x : Trunk) : (s.setTrunk p x).steer = s.steer := by cases p <;> rfl
@[simp] theorem State.setTrunk_meters (p : TrunkPort) (x : Trunk) : (s.setTrunk p x).meters = s.meters := by cases p <;> rfl
@[simp] theorem State.setTrunk_counters (p : TrunkPort) (x : Trunk) : (s.setTrunk p x).counters = s.counters := by cases p <;> rfl
@[simp] theorem State.setTrunk_numbering (p : TrunkPort) (x : Trunk) : (s.setTrunk p x).numbering = s.numbering := by cases p <;> rfl
@[simp] theorem State.setTrunk_enums (p : TrunkPort) (x : Trunk) : (s.setTrunk p x).enums = s.enums := by cases p <;> rfl
@[simp] theorem State.setTrunk_session (p : TrunkPort) (x : Trunk) : (s.setTrunk p x).session = s.session := by cases p <;> rfl
@[simp] theorem State.setTrunk_mgmt (p : TrunkPort) (x : Trunk) : (s.setTrunk p x).mgmt = s.mgmt := by cases p <;> rfl
@[simp] theorem State.setTrunk_params (p : TrunkPort) (x : Trunk) : (s.setTrunk p x).params = s.params := by cases p <;> rfl
@[simp] theorem State.setTrunk_events (p : TrunkPort) (x : Trunk) : (s.setTrunk p x).events = s.events := by cases p <;> rfl
@[simp] theorem State.setTrunk_choices (p : TrunkPort) (x : Trunk) : (s.setTrunk p x).choices = s.choices := by cases p <;> rfl
@[simp] theorem State.setTrunk_pending (p : TrunkPort) (x : Trunk) : (s.setTrunk p x).pending = s.pending := by cases p <;> rfl

/-! ### onTrunk -/

@[simp] theorem State.onTrunk_nodeTime (p : TrunkPort) (f : Trunk → Trunk) : (s.onTrunk p f).nodeTime = s.nodeTime := by cases p <;> rfl
@[simp] theorem State.onTrunk_store (p : TrunkPort) (f : Trunk → Trunk) : (s.onTrunk p f).store = s.store := by cases p <;> rfl
@[simp] theorem State.onTrunk_loc (p : TrunkPort) (f : Trunk → Trunk) : (s.onTrunk p f).loc = s.loc := by cases p <;> rfl
@[simp] theorem State.onTrunk_steer (p : TrunkPort) (f : Trunk → Trunk) : (s.onTrunk p f).steer = s.steer := by cases p <;> rfl
@[simp] theorem State.onTrunk_meters (p : TrunkPort) (f : Trunk → Trunk) : (s.onTrunk p f).meters = s.meters := by cases p <;> rfl
@[simp] theorem State.onTrunk_counters (p : TrunkPort) (f : Trunk → Trunk) : (s.onTrunk p f).counters = s.counters := by cases p <;> rfl
@[simp] theorem State.onTrunk_numbering (p : TrunkPort) (f : Trunk → Trunk) : (s.onTrunk p f).numbering = s.numbering := by cases p <;> rfl
@[simp] theorem State.onTrunk_enums (p : TrunkPort) (f : Trunk → Trunk) : (s.onTrunk p f).enums = s.enums := by cases p <;> rfl
@[simp] theorem State.onTrunk_session (p : TrunkPort) (f : Trunk → Trunk) : (s.onTrunk p f).session = s.session := by cases p <;> rfl
@[simp] theorem State.onTrunk_mgmt (p : TrunkPort) (f : Trunk → Trunk) : (s.onTrunk p f).mgmt = s.mgmt := by cases p <;> rfl
@[simp] theorem State.onTrunk_params (p : TrunkPort) (f : Trunk → Trunk) : (s.onTrunk p f).params = s.params := by cases p <;> rfl
@[simp] theorem State.onTrunk_events (p : TrunkPort) (f : Trunk → Trunk) : (s.onTrunk p f).events = s.events := by cases p <;> rfl
@[simp] theorem State.onTrunk_choices (p : TrunkPort) (f : Trunk → Trunk) : (s.onTrunk p f).choices = s.choices := by cases p <;> rfl
@[simp] theorem State.onTrunk_pending (p : TrunkPort) (f : Trunk → Trunk) : (s.onTrunk p f).pending = s.pending := by cases p <;> rfl

/-! ### onRx -/

@[simp] theorem State.onRx_nodeTime (p : TrunkPort) (f : Receiver → Receiver) : (s.onRx p f).nodeTime = s.nodeTime := by cases p <;> rfl
@[simp] theorem State.onRx_store (p : TrunkPort) (f : Receiver → Receiver) : (s.onRx p f).store = s.store := by cases p <;> rfl
@[simp] theorem State.onRx_loc (p : TrunkPort) (f : Receiver → Receiver) : (s.onRx p f).loc = s.loc := by cases p <;> rfl
@[simp] theorem State.onRx_steer (p : TrunkPort) (f : Receiver → Receiver) : (s.onRx p f).steer = s.steer := by cases p <;> rfl
@[simp] theorem State.onRx_meters (p : TrunkPort) (f : Receiver → Receiver) : (s.onRx p f).meters = s.meters := by cases p <;> rfl
@[simp] theorem State.onRx_counters (p : TrunkPort) (f : Receiver → Receiver) : (s.onRx p f).counters = s.counters := by cases p <;> rfl
@[simp] theorem State.onRx_numbering (p : TrunkPort) (f : Receiver → Receiver) : (s.onRx p f).numbering = s.numbering := by cases p <;> rfl
@[simp] theorem State.onRx_enums (p : TrunkPort) (f : Receiver → Receiver) : (s.onRx p f).enums = s.enums := by cases p <;> rfl
@[simp] theorem State.onRx_session (p : TrunkPort) (f : Receiver → Receiver) : (s.onRx p f).session = s.session := by cases p <;> rfl
@[simp] theorem State.onRx_mgmt (p : TrunkPort) (f : Receiver → Receiver) : (s.onRx p f).mgmt = s.mgmt := by cases p <;> rfl
@[simp] theorem State.onRx_params (p : TrunkPort) (f : Receiver → Receiver) : (s.onRx p f).params = s.params := by cases p <;> rfl
@[simp] theorem State.onRx_events (p : TrunkPort) (f : Receiver → Receiver) : (s.onRx p f).events = s.events := by cases p <;> rfl
@[simp] theorem State.onRx_choices (p : TrunkPort) (f : Receiver → Receiver) : (s.onRx p f).choices = s.choices := by cases p <;> rfl
@[simp] theorem State.onRx_pending (p : TrunkPort) (f : Receiver → Receiver) : (s.onRx p f).pending = s.pending := by cases p <;> rfl

/-! ### onTx -/

@[simp] theorem State.onTx_nodeTime (p : TrunkPort) (f : Transmitter → Transmitter) : (s.onTx p f).nodeTime = s.nodeTime := by cases p <;> rfl
@[simp] theorem State.onTx_store (p : TrunkPort) (f : Transmitter → Transmitter) : (s.onTx p f).store = s.store := by cases p <;> rfl
@[simp] theorem State.onTx_loc (p : TrunkPort) (f : Transmitter → Transmitter) : (s.onTx p f).loc = s.loc := by cases p <;> rfl
@[simp] theorem State.onTx_steer (p : TrunkPort) (f : Transmitter → Transmitter) : (s.onTx p f).steer = s.steer := by cases p <;> rfl
@[simp] theorem State.onTx_meters (p : TrunkPort) (f : Transmitter → Transmitter) : (s.onTx p f).meters = s.meters := by cases p <;> rfl
@[simp] theorem State.onTx_counters (p : TrunkPort) (f : Transmitter → Transmitter) : (s.onTx p f).counters = s.counters := by cases p <;> rfl
@[simp] theorem State.onTx_numbering (p : TrunkPort) (f : Transmitter → Transmitter) : (s.onTx p f).numbering = s.numbering := by cases p <;> rfl
@[simp] theorem State.onTx_enums (p : TrunkPort) (f : Transmitter → Transmitter) : (s.onTx p f).enums = s.enums := by cases p <;> rfl
@[simp] theorem State.onTx_session (p : TrunkPort) (f : Transmitter → Transmitter) : (s.onTx p f).session = s.session := by cases p <;> rfl
@[simp] theorem State.onTx_mgmt (p : TrunkPort) (f : Transmitter → Transmitter) : (s.onTx p f).mgmt = s.mgmt := by cases p <;> rfl
@[simp] theorem State.onTx_params (p : TrunkPort) (f : Transmitter → Transmitter) : (s.onTx p f).params = s.params := by cases p <;> rfl
@[simp] theorem State.onTx_events (p : TrunkPort) (f : Transmitter → Transmitter) : (s.onTx p f).events = s.events := by cases p <;> rfl
@[simp] theorem State.onTx_choices (p : TrunkPort) (f : Transmitter → Transmitter) : (s.onTx p f).choices = s.choices := by cases p <;> rfl
@[simp] theorem State.onTx_pending (p : TrunkPort) (f : Transmitter → Transmitter) : (s.onTx p f).pending = s.pending := by cases p <;> rfl

/-! ### onLink -/

@[simp] theorem State.onLink_nodeTime (p : TrunkPort) (f : Link → Link) : (s.onLink p f).nodeTime = s.nodeTime := by cases p <;> rfl
@[simp] theorem State.onLink_store (p : TrunkPort) (f : Link → Link) : (s.onLink p f).store = s.store := by cases p <;> rfl
@[simp] theorem State.onLink_loc (p : TrunkPort) (f : Link → Link) : (s.onLink p f).loc = s.loc := by cases p <;> rfl
@[simp] theorem State.onLink_steer (p : TrunkPort) (f : Link → Link) : (s.onLink p f).steer = s.steer := by cases p <;> rfl
@[simp] theorem State.onLink_meters (p : TrunkPort) (f : Link → Link) : (s.onLink p f).meters = s.meters := by cases p <;> rfl
@[simp] theorem State.onLink_counters (p : TrunkPort) (f : Link → Link) : (s.onLink p f).counters = s.counters := by cases p <;> rfl
@[simp] theorem State.onLink_numbering (p : TrunkPort) (f : Link → Link) : (s.onLink p f).numbering = s.numbering := by cases p <;> rfl
@[simp] theorem State.onLink_enums (p : TrunkPort) (f : Link → Link) : (s.onLink p f).enums = s.enums := by cases p <;> rfl
@[simp] theorem State.onLink_session (p : TrunkPort) (f : Link → Link) : (s.onLink p f).session = s.session := by cases p <;> rfl
@[simp] theorem State.onLink_mgmt (p : TrunkPort) (f : Link → Link) : (s.onLink p f).mgmt = s.mgmt := by cases p <;> rfl
@[simp] theorem State.onLink_params (p : TrunkPort) (f : Link → Link) : (s.onLink p f).params = s.params := by cases p <;> rfl
@[simp] theorem State.onLink_events (p : TrunkPort) (f : Link → Link) : (s.onLink p f).events = s.events := by cases p <;> rfl
@[simp] theorem State.onLink_choices (p : TrunkPort) (f : Link → Link) : (s.onLink p f).choices = s.choices := by cases p <;> rfl
@[simp] theorem State.onLink_pending (p : TrunkPort) (f : Link → Link) : (s.onLink p f).pending = s.pending := by cases p <;> rfl

/-! ### raiseTrunk -/

@[simp] theorem State.raiseTrunk_nodeTime (p : TrunkPort) (k : TrunkStat) : (s.raiseTrunk p k).nodeTime = s.nodeTime := by cases p <;> rfl
@[simp] theorem State.raiseTrunk_store (p : TrunkPort) (k : TrunkStat) : (s.raiseTrunk p k).store = s.store := by cases p <;> rfl
@[simp] theorem State.raiseTrunk_loc (p : TrunkPort) (k : TrunkStat) : (s.raiseTrunk p k).loc = s.loc := by cases p <;> rfl
@[simp] theorem State.raiseTrunk_steer (p : TrunkPort) (k : TrunkStat) : (s.raiseTrunk p k).steer = s.steer := by cases p <;> rfl
@[simp] theorem State.raiseTrunk_meters (p : TrunkPort) (k : TrunkStat) : (s.raiseTrunk p k).meters = s.meters := by cases p <;> rfl
@[simp] theorem State.raiseTrunk_counters (p : TrunkPort) (k : TrunkStat) : (s.raiseTrunk p k).counters = s.counters := by cases p <;> rfl
@[simp] theorem State.raiseTrunk_numbering (p : TrunkPort) (k : TrunkStat) : (s.raiseTrunk p k).numbering = s.numbering := by cases p <;> rfl
@[simp] theorem State.raiseTrunk_enums (p : TrunkPort) (k : TrunkStat) : (s.raiseTrunk p k).enums = s.enums := by cases p <;> rfl
@[simp] theorem State.raiseTrunk_session (p : TrunkPort) (k : TrunkStat) : (s.raiseTrunk p k).session = s.session := by cases p <;> rfl
@[simp] theorem State.raiseTrunk_mgmt (p : TrunkPort) (k : TrunkStat) : (s.raiseTrunk p k).mgmt = s.mgmt := by cases p <;> rfl
@[simp] theorem State.raiseTrunk_params (p : TrunkPort) (k : TrunkStat) : (s.raiseTrunk p k).params = s.params := by cases p <;> rfl
@[simp] theorem State.raiseTrunk_events (p : TrunkPort) (k : TrunkStat) : (s.raiseTrunk p k).events = s.events := by cases p <;> rfl
@[simp] theorem State.raiseTrunk_choices (p : TrunkPort) (k : TrunkStat) : (s.raiseTrunk p k).choices = s.choices := by cases p <;> rfl
@[simp] theorem State.raiseTrunk_pending (p : TrunkPort) (k : TrunkStat) : (s.raiseTrunk p k).pending = s.pending := by cases p <;> rfl

/-! ### setReception -/

@[simp] theorem State.setReception_nodeTime (p : TrunkPort) (x : Reception) : (s.setReception p x).nodeTime = s.nodeTime := by cases p <;> rfl
@[simp] theorem State.setReception_store (p : TrunkPort) (x : Reception) : (s.setReception p x).store = s.store := by cases p <;> rfl
@[simp] theorem State.setReception_loc (p : TrunkPort) (x : Reception) : (s.setReception p x).loc = s.loc := by cases p <;> rfl
@[simp] theorem State.setReception_steer (p : TrunkPort) (x : Reception) : (s.setReception p x).steer = s.steer := by cases p <;> rfl
@[simp] theorem State.setReception_meters (p : TrunkPort) (x : Reception) : (s.setReception p x).meters = s.meters := by cases p <;> rfl
@[simp] theorem State.setReception_counters (p : TrunkPort) (x : Reception) : (s.setReception p x).counters = s.counters := by cases p <;> rfl
@[simp] theorem State.setReception_numbering (p : TrunkPort) (x : Reception) : (s.setReception p x).numbering = s.numbering := by cases p <;> rfl
@[simp] theorem State.setReception_enums (p : TrunkPort) (x : Reception) : (s.setReception p x).enums = s.enums := by cases p <;> rfl
@[simp] theorem State.setReception_session (p : TrunkPort) (x : Reception) : (s.setReception p x).session = s.session := by cases p <;> rfl
@[simp] theorem State.setReception_mgmt (p : TrunkPort) (x : Reception) : (s.setReception p x).mgmt = s.mgmt := by cases p <;> rfl
@[simp] theorem State.setReception_params (p : TrunkPort) (x : Reception) : (s.setReception p x).params = s.params := by cases p <;> rfl
@[simp] theorem State.setReception_events (p : TrunkPort) (x : Reception) : (s.setReception p x).events = s.events := by cases p <;> rfl
@[simp] theorem State.setReception_choices (p : TrunkPort) (x : Reception) : (s.setReception p x).choices = s.choices := by cases p <;> rfl
@[simp] theorem State.setReception_pending (p : TrunkPort) (x : Reception) : (s.setReception p x).pending = s.pending := by cases p <;> rfl

/-! ### answer -/

@[simp] theorem State.answer_nodeTime (p : TrunkPort) (a : Answer) : (s.answer p a).nodeTime = s.nodeTime := by cases p <;> rfl
@[simp] theorem State.answer_store (p : TrunkPort) (a : Answer) : (s.answer p a).store = s.store := by cases p <;> rfl
@[simp] theorem State.answer_loc (p : TrunkPort) (a : Answer) : (s.answer p a).loc = s.loc := by cases p <;> rfl
@[simp] theorem State.answer_steer (p : TrunkPort) (a : Answer) : (s.answer p a).steer = s.steer := by cases p <;> rfl
@[simp] theorem State.answer_meters (p : TrunkPort) (a : Answer) : (s.answer p a).meters = s.meters := by cases p <;> rfl
@[simp] theorem State.answer_counters (p : TrunkPort) (a : Answer) : (s.answer p a).counters = s.counters := by cases p <;> rfl
@[simp] theorem State.answer_numbering (p : TrunkPort) (a : Answer) : (s.answer p a).numbering = s.numbering := by cases p <;> rfl
@[simp] theorem State.answer_enums (p : TrunkPort) (a : Answer) : (s.answer p a).enums = s.enums := by cases p <;> rfl
@[simp] theorem State.answer_session (p : TrunkPort) (a : Answer) : (s.answer p a).session = s.session := by cases p <;> rfl
@[simp] theorem State.answer_mgmt (p : TrunkPort) (a : Answer) : (s.answer p a).mgmt = s.mgmt := by cases p <;> rfl
@[simp] theorem State.answer_params (p : TrunkPort) (a : Answer) : (s.answer p a).params = s.params := by cases p <;> rfl
@[simp] theorem State.answer_events (p : TrunkPort) (a : Answer) : (s.answer p a).events = s.events := by cases p <;> rfl
@[simp] theorem State.answer_choices (p : TrunkPort) (a : Answer) : (s.answer p a).choices = s.choices := by cases p <;> rfl
@[simp] theorem State.answer_pending (p : TrunkPort) (a : Answer) : (s.answer p a).pending = s.pending := by cases p <;> rfl

/-! ### setQueues -/

@[simp] theorem State.setQueues_nodeTime (q : Port) (x : QueueSet) : (s.setQueues q x).nodeTime = s.nodeTime := by cases q <;> rfl
@[simp] theorem State.setQueues_store (q : Port) (x : QueueSet) : (s.setQueues q x).store = s.store := by cases q <;> rfl
@[simp] theorem State.setQueues_steer (q : Port) (x : QueueSet) : (s.setQueues q x).steer = s.steer := by cases q <;> rfl
@[simp] theorem State.setQueues_meters (q : Port) (x : QueueSet) : (s.setQueues q x).meters = s.meters := by cases q <;> rfl
@[simp] theorem State.setQueues_counters (q : Port) (x : QueueSet) : (s.setQueues q x).counters = s.counters := by cases q <;> rfl
@[simp] theorem State.setQueues_numbering (q : Port) (x : QueueSet) : (s.setQueues q x).numbering = s.numbering := by cases q <;> rfl
@[simp] theorem State.setQueues_enums (q : Port) (x : QueueSet) : (s.setQueues q x).enums = s.enums := by cases q <;> rfl
@[simp] theorem State.setQueues_session (q : Port) (x : QueueSet) : (s.setQueues q x).session = s.session := by cases q <;> rfl
@[simp] theorem State.setQueues_mgmt (q : Port) (x : QueueSet) : (s.setQueues q x).mgmt = s.mgmt := by cases q <;> rfl
@[simp] theorem State.setQueues_params (q : Port) (x : QueueSet) : (s.setQueues q x).params = s.params := by cases q <;> rfl
@[simp] theorem State.setQueues_events (q : Port) (x : QueueSet) : (s.setQueues q x).events = s.events := by cases q <;> rfl
@[simp] theorem State.setQueues_choices (q : Port) (x : QueueSet) : (s.setQueues q x).choices = s.choices := by cases q <;> rfl
@[simp] theorem State.setQueues_pending (q : Port) (x : QueueSet) : (s.setQueues q x).pending = s.pending := by cases q <;> rfl

/-! ### raiseSkip -/

@[simp] theorem State.raiseSkip_nodeTime (q : Port) : (s.raiseSkip q).nodeTime = s.nodeTime := by cases q <;> rfl
@[simp] theorem State.raiseSkip_store (q : Port) : (s.raiseSkip q).store = s.store := by cases q <;> rfl
@[simp] theorem State.raiseSkip_steer (q : Port) : (s.raiseSkip q).steer = s.steer := by cases q <;> rfl
@[simp] theorem State.raiseSkip_meters (q : Port) : (s.raiseSkip q).meters = s.meters := by cases q <;> rfl
@[simp] theorem State.raiseSkip_counters (q : Port) : (s.raiseSkip q).counters = s.counters := by cases q <;> rfl
@[simp] theorem State.raiseSkip_numbering (q : Port) : (s.raiseSkip q).numbering = s.numbering := by cases q <;> rfl
@[simp] theorem State.raiseSkip_enums (q : Port) : (s.raiseSkip q).enums = s.enums := by cases q <;> rfl
@[simp] theorem State.raiseSkip_session (q : Port) : (s.raiseSkip q).session = s.session := by cases q <;> rfl
@[simp] theorem State.raiseSkip_mgmt (q : Port) : (s.raiseSkip q).mgmt = s.mgmt := by cases q <;> rfl
@[simp] theorem State.raiseSkip_params (q : Port) : (s.raiseSkip q).params = s.params := by cases q <;> rfl
@[simp] theorem State.raiseSkip_events (q : Port) : (s.raiseSkip q).events = s.events := by cases q <;> rfl
@[simp] theorem State.raiseSkip_choices (q : Port) : (s.raiseSkip q).choices = s.choices := by cases q <;> rfl
@[simp] theorem State.raiseSkip_pending (q : Port) : (s.raiseSkip q).pending = s.pending := by cases q <;> rfl

/-! ### setBacklog -/

@[simp] theorem State.setBacklog_nodeTime (q : Port) (x : List Nat) : (s.setBacklog q x).nodeTime = s.nodeTime := by cases q <;> rfl
@[simp] theorem State.setBacklog_store (q : Port) (x : List Nat) : (s.setBacklog q x).store = s.store := by cases q <;> rfl
@[simp] theorem State.setBacklog_trunkA (q : Port) (x : List Nat) : (s.setBacklog q x).trunkA = s.trunkA := by cases q <;> rfl
@[simp] theorem State.setBacklog_trunkB (q : Port) (x : List Nat) : (s.setBacklog q x).trunkB = s.trunkB := by cases q <;> rfl
@[simp] theorem State.setBacklog_loc (q : Port) (x : List Nat) : (s.setBacklog q x).loc = s.loc := by cases q <;> rfl
@[simp] theorem State.setBacklog_meters (q : Port) (x : List Nat) : (s.setBacklog q x).meters = s.meters := by cases q <;> rfl
@[simp] theorem State.setBacklog_counters (q : Port) (x : List Nat) : (s.setBacklog q x).counters = s.counters := by cases q <;> rfl
@[simp] theorem State.setBacklog_numbering (q : Port) (x : List Nat) : (s.setBacklog q x).numbering = s.numbering := by cases q <;> rfl
@[simp] theorem State.setBacklog_enums (q : Port) (x : List Nat) : (s.setBacklog q x).enums = s.enums := by cases q <;> rfl
@[simp] theorem State.setBacklog_session (q : Port) (x : List Nat) : (s.setBacklog q x).session = s.session := by cases q <;> rfl
@[simp] theorem State.setBacklog_mgmt (q : Port) (x : List Nat) : (s.setBacklog q x).mgmt = s.mgmt := by cases q <;> rfl
@[simp] theorem State.setBacklog_params (q : Port) (x : List Nat) : (s.setBacklog q x).params = s.params := by cases q <;> rfl
@[simp] theorem State.setBacklog_events (q : Port) (x : List Nat) : (s.setBacklog q x).events = s.events := by cases q <;> rfl
@[simp] theorem State.setBacklog_choices (q : Port) (x : List Nat) : (s.setBacklog q x).choices = s.choices := by cases q <;> rfl
@[simp] theorem State.setBacklog_pending (q : Port) (x : List Nat) : (s.setBacklog q x).pending = s.pending := by cases q <;> rfl

/-! ### raiseLocal -/

@[simp] theorem State.raiseLocal_nodeTime (k : LocalStat) : (s.raiseLocal k).nodeTime = s.nodeTime := rfl
@[simp] theorem State.raiseLocal_store (k : LocalStat) : (s.raiseLocal k).store = s.store := rfl
@[simp] theorem State.raiseLocal_trunkA (k : LocalStat) : (s.raiseLocal k).trunkA = s.trunkA := rfl
@[simp] theorem State.raiseLocal_trunkB (k : LocalStat) : (s.raiseLocal k).trunkB = s.trunkB := rfl
@[simp] theorem State.raiseLocal_steer (k : LocalStat) : (s.raiseLocal k).steer = s.steer := rfl
@[simp] theorem State.raiseLocal_meters (k : LocalStat) : (s.raiseLocal k).meters = s.meters := rfl
@[simp] theorem State.raiseLocal_counters (k : LocalStat) : (s.raiseLocal k).counters = s.counters := rfl
@[simp] theorem State.raiseLocal_numbering (k : LocalStat) : (s.raiseLocal k).numbering = s.numbering := rfl
@[simp] theorem State.raiseLocal_enums (k : LocalStat) : (s.raiseLocal k).enums = s.enums := rfl
@[simp] theorem State.raiseLocal_session (k : LocalStat) : (s.raiseLocal k).session = s.session := rfl
@[simp] theorem State.raiseLocal_mgmt (k : LocalStat) : (s.raiseLocal k).mgmt = s.mgmt := rfl
@[simp] theorem State.raiseLocal_params (k : LocalStat) : (s.raiseLocal k).params = s.params := rfl
@[simp] theorem State.raiseLocal_events (k : LocalStat) : (s.raiseLocal k).events = s.events := rfl
@[simp] theorem State.raiseLocal_choices (k : LocalStat) : (s.raiseLocal k).choices = s.choices := rfl
@[simp] theorem State.raiseLocal_pending (k : LocalStat) : (s.raiseLocal k).pending = s.pending := rfl

/-! ### raiseMgmt -/

@[simp] theorem State.raiseMgmt_nodeTime (k : MgmtStat) : (s.raiseMgmt k).nodeTime = s.nodeTime := rfl
@[simp] theorem State.raiseMgmt_store (k : MgmtStat) : (s.raiseMgmt k).store = s.store := rfl
@[simp] theorem State.raiseMgmt_trunkA (k : MgmtStat) : (s.raiseMgmt k).trunkA = s.trunkA := rfl
@[simp] theorem State.raiseMgmt_trunkB (k : MgmtStat) : (s.raiseMgmt k).trunkB = s.trunkB := rfl
@[simp] theorem State.raiseMgmt_loc (k : MgmtStat) : (s.raiseMgmt k).loc = s.loc := rfl
@[simp] theorem State.raiseMgmt_steer (k : MgmtStat) : (s.raiseMgmt k).steer = s.steer := rfl
@[simp] theorem State.raiseMgmt_meters (k : MgmtStat) : (s.raiseMgmt k).meters = s.meters := rfl
@[simp] theorem State.raiseMgmt_counters (k : MgmtStat) : (s.raiseMgmt k).counters = s.counters := rfl
@[simp] theorem State.raiseMgmt_numbering (k : MgmtStat) : (s.raiseMgmt k).numbering = s.numbering := rfl
@[simp] theorem State.raiseMgmt_enums (k : MgmtStat) : (s.raiseMgmt k).enums = s.enums := rfl
@[simp] theorem State.raiseMgmt_session (k : MgmtStat) : (s.raiseMgmt k).session = s.session := rfl
@[simp] theorem State.raiseMgmt_params (k : MgmtStat) : (s.raiseMgmt k).params = s.params := rfl
@[simp] theorem State.raiseMgmt_events (k : MgmtStat) : (s.raiseMgmt k).events = s.events := rfl
@[simp] theorem State.raiseMgmt_choices (k : MgmtStat) : (s.raiseMgmt k).choices = s.choices := rfl
@[simp] theorem State.raiseMgmt_pending (k : MgmtStat) : (s.raiseMgmt k).pending = s.pending := rfl

/-! ### setRecord -/

@[simp] theorem State.setRecord_nodeTime (r : Nat) (f : FrameRecord) : (s.setRecord r f).nodeTime = s.nodeTime := rfl
@[simp] theorem State.setRecord_trunkA (r : Nat) (f : FrameRecord) : (s.setRecord r f).trunkA = s.trunkA := rfl
@[simp] theorem State.setRecord_trunkB (r : Nat) (f : FrameRecord) : (s.setRecord r f).trunkB = s.trunkB := rfl
@[simp] theorem State.setRecord_loc (r : Nat) (f : FrameRecord) : (s.setRecord r f).loc = s.loc := rfl
@[simp] theorem State.setRecord_steer (r : Nat) (f : FrameRecord) : (s.setRecord r f).steer = s.steer := rfl
@[simp] theorem State.setRecord_meters (r : Nat) (f : FrameRecord) : (s.setRecord r f).meters = s.meters := rfl
@[simp] theorem State.setRecord_counters (r : Nat) (f : FrameRecord) : (s.setRecord r f).counters = s.counters := rfl
@[simp] theorem State.setRecord_numbering (r : Nat) (f : FrameRecord) : (s.setRecord r f).numbering = s.numbering := rfl
@[simp] theorem State.setRecord_enums (r : Nat) (f : FrameRecord) : (s.setRecord r f).enums = s.enums := rfl
@[simp] theorem State.setRecord_session (r : Nat) (f : FrameRecord) : (s.setRecord r f).session = s.session := rfl
@[simp] theorem State.setRecord_mgmt (r : Nat) (f : FrameRecord) : (s.setRecord r f).mgmt = s.mgmt := rfl
@[simp] theorem State.setRecord_params (r : Nat) (f : FrameRecord) : (s.setRecord r f).params = s.params := rfl
@[simp] theorem State.setRecord_events (r : Nat) (f : FrameRecord) : (s.setRecord r f).events = s.events := rfl
@[simp] theorem State.setRecord_choices (r : Nat) (f : FrameRecord) : (s.setRecord r f).choices = s.choices := rfl
@[simp] theorem State.setRecord_pending (r : Nat) (f : FrameRecord) : (s.setRecord r f).pending = s.pending := rfl

/-! ### returnRoom -/

@[simp] theorem State.returnRoom_nodeTime (r : Nat) : (s.returnRoom r).nodeTime = s.nodeTime := rfl
@[simp] theorem State.returnRoom_trunkA (r : Nat) : (s.returnRoom r).trunkA = s.trunkA := rfl
@[simp] theorem State.returnRoom_trunkB (r : Nat) : (s.returnRoom r).trunkB = s.trunkB := rfl
@[simp] theorem State.returnRoom_loc (r : Nat) : (s.returnRoom r).loc = s.loc := rfl
@[simp] theorem State.returnRoom_steer (r : Nat) : (s.returnRoom r).steer = s.steer := rfl
@[simp] theorem State.returnRoom_meters (r : Nat) : (s.returnRoom r).meters = s.meters := rfl
@[simp] theorem State.returnRoom_counters (r : Nat) : (s.returnRoom r).counters = s.counters := rfl
@[simp] theorem State.returnRoom_numbering (r : Nat) : (s.returnRoom r).numbering = s.numbering := rfl
@[simp] theorem State.returnRoom_enums (r : Nat) : (s.returnRoom r).enums = s.enums := rfl
@[simp] theorem State.returnRoom_session (r : Nat) : (s.returnRoom r).session = s.session := rfl
@[simp] theorem State.returnRoom_mgmt (r : Nat) : (s.returnRoom r).mgmt = s.mgmt := rfl
@[simp] theorem State.returnRoom_params (r : Nat) : (s.returnRoom r).params = s.params := rfl
@[simp] theorem State.returnRoom_events (r : Nat) : (s.returnRoom r).events = s.events := rfl
@[simp] theorem State.returnRoom_choices (r : Nat) : (s.returnRoom r).choices = s.choices := rfl
@[simp] theorem State.returnRoom_pending (r : Nat) : (s.returnRoom r).pending = s.pending := rfl

/-! ### setWatermark -/

@[simp] theorem State.setWatermark_nodeTime (w : Watermark) : (s.setWatermark w).nodeTime = s.nodeTime := rfl
@[simp] theorem State.setWatermark_trunkA (w : Watermark) : (s.setWatermark w).trunkA = s.trunkA := rfl
@[simp] theorem State.setWatermark_trunkB (w : Watermark) : (s.setWatermark w).trunkB = s.trunkB := rfl
@[simp] theorem State.setWatermark_loc (w : Watermark) : (s.setWatermark w).loc = s.loc := rfl
@[simp] theorem State.setWatermark_steer (w : Watermark) : (s.setWatermark w).steer = s.steer := rfl
@[simp] theorem State.setWatermark_meters (w : Watermark) : (s.setWatermark w).meters = s.meters := rfl
@[simp] theorem State.setWatermark_counters (w : Watermark) : (s.setWatermark w).counters = s.counters := rfl
@[simp] theorem State.setWatermark_numbering (w : Watermark) : (s.setWatermark w).numbering = s.numbering := rfl
@[simp] theorem State.setWatermark_enums (w : Watermark) : (s.setWatermark w).enums = s.enums := rfl
@[simp] theorem State.setWatermark_session (w : Watermark) : (s.setWatermark w).session = s.session := rfl
@[simp] theorem State.setWatermark_mgmt (w : Watermark) : (s.setWatermark w).mgmt = s.mgmt := rfl
@[simp] theorem State.setWatermark_params (w : Watermark) : (s.setWatermark w).params = s.params := rfl
@[simp] theorem State.setWatermark_events (w : Watermark) : (s.setWatermark w).events = s.events := rfl
@[simp] theorem State.setWatermark_choices (w : Watermark) : (s.setWatermark w).choices = s.choices := rfl
@[simp] theorem State.setWatermark_pending (w : Watermark) : (s.setWatermark w).pending = s.pending := rfl

/-! ### setNotice -/

@[simp] theorem State.setNotice_nodeTime : (s.setNotice).nodeTime = s.nodeTime := rfl
@[simp] theorem State.setNotice_store : (s.setNotice).store = s.store := rfl
@[simp] theorem State.setNotice_trunkA : (s.setNotice).trunkA = s.trunkA := rfl
@[simp] theorem State.setNotice_trunkB : (s.setNotice).trunkB = s.trunkB := rfl
@[simp] theorem State.setNotice_loc : (s.setNotice).loc = s.loc := rfl
@[simp] theorem State.setNotice_steer : (s.setNotice).steer = s.steer := rfl
@[simp] theorem State.setNotice_meters : (s.setNotice).meters = s.meters := rfl
@[simp] theorem State.setNotice_counters : (s.setNotice).counters = s.counters := rfl
@[simp] theorem State.setNotice_numbering : (s.setNotice).numbering = s.numbering := rfl
@[simp] theorem State.setNotice_enums : (s.setNotice).enums = s.enums := rfl
@[simp] theorem State.setNotice_session : (s.setNotice).session = s.session := rfl
@[simp] theorem State.setNotice_mgmt : (s.setNotice).mgmt = s.mgmt := rfl
@[simp] theorem State.setNotice_params : (s.setNotice).params = s.params := rfl
@[simp] theorem State.setNotice_choices : (s.setNotice).choices = s.choices := rfl
@[simp] theorem State.setNotice_pending : (s.setNotice).pending = s.pending := rfl

/-! ### setIngress -/

@[simp] theorem State.setIngress_nodeTime (x : Ingress) : (s.setIngress x).nodeTime = s.nodeTime := rfl
@[simp] theorem State.setIngress_store (x : Ingress) : (s.setIngress x).store = s.store := rfl
@[simp] theorem State.setIngress_trunkA (x : Ingress) : (s.setIngress x).trunkA = s.trunkA := rfl
@[simp] theorem State.setIngress_trunkB (x : Ingress) : (s.setIngress x).trunkB = s.trunkB := rfl
@[simp] theorem State.setIngress_steer (x : Ingress) : (s.setIngress x).steer = s.steer := rfl
@[simp] theorem State.setIngress_meters (x : Ingress) : (s.setIngress x).meters = s.meters := rfl
@[simp] theorem State.setIngress_counters (x : Ingress) : (s.setIngress x).counters = s.counters := rfl
@[simp] theorem State.setIngress_numbering (x : Ingress) : (s.setIngress x).numbering = s.numbering := rfl
@[simp] theorem State.setIngress_enums (x : Ingress) : (s.setIngress x).enums = s.enums := rfl
@[simp] theorem State.setIngress_session (x : Ingress) : (s.setIngress x).session = s.session := rfl
@[simp] theorem State.setIngress_mgmt (x : Ingress) : (s.setIngress x).mgmt = s.mgmt := rfl
@[simp] theorem State.setIngress_params (x : Ingress) : (s.setIngress x).params = s.params := rfl
@[simp] theorem State.setIngress_events (x : Ingress) : (s.setIngress x).events = s.events := rfl
@[simp] theorem State.setIngress_choices (x : Ingress) : (s.setIngress x).choices = s.choices := rfl
@[simp] theorem State.setIngress_pending (x : Ingress) : (s.setIngress x).pending = s.pending := rfl

/-! ### setEgress -/

@[simp] theorem State.setEgress_nodeTime (x : Egress) : (s.setEgress x).nodeTime = s.nodeTime := rfl
@[simp] theorem State.setEgress_store (x : Egress) : (s.setEgress x).store = s.store := rfl
@[simp] theorem State.setEgress_trunkA (x : Egress) : (s.setEgress x).trunkA = s.trunkA := rfl
@[simp] theorem State.setEgress_trunkB (x : Egress) : (s.setEgress x).trunkB = s.trunkB := rfl
@[simp] theorem State.setEgress_steer (x : Egress) : (s.setEgress x).steer = s.steer := rfl
@[simp] theorem State.setEgress_meters (x : Egress) : (s.setEgress x).meters = s.meters := rfl
@[simp] theorem State.setEgress_counters (x : Egress) : (s.setEgress x).counters = s.counters := rfl
@[simp] theorem State.setEgress_numbering (x : Egress) : (s.setEgress x).numbering = s.numbering := rfl
@[simp] theorem State.setEgress_enums (x : Egress) : (s.setEgress x).enums = s.enums := rfl
@[simp] theorem State.setEgress_session (x : Egress) : (s.setEgress x).session = s.session := rfl
@[simp] theorem State.setEgress_mgmt (x : Egress) : (s.setEgress x).mgmt = s.mgmt := rfl
@[simp] theorem State.setEgress_params (x : Egress) : (s.setEgress x).params = s.params := rfl
@[simp] theorem State.setEgress_events (x : Egress) : (s.setEgress x).events = s.events := rfl
@[simp] theorem State.setEgress_choices (x : Egress) : (s.setEgress x).choices = s.choices := rfl
@[simp] theorem State.setEgress_pending (x : Egress) : (s.setEgress x).pending = s.pending := rfl

/-! ### setExecutor -/

@[simp] theorem State.setExecutor_nodeTime (x : Executor) : (s.setExecutor x).nodeTime = s.nodeTime := rfl
@[simp] theorem State.setExecutor_store (x : Executor) : (s.setExecutor x).store = s.store := rfl
@[simp] theorem State.setExecutor_trunkA (x : Executor) : (s.setExecutor x).trunkA = s.trunkA := rfl
@[simp] theorem State.setExecutor_trunkB (x : Executor) : (s.setExecutor x).trunkB = s.trunkB := rfl
@[simp] theorem State.setExecutor_loc (x : Executor) : (s.setExecutor x).loc = s.loc := rfl
@[simp] theorem State.setExecutor_steer (x : Executor) : (s.setExecutor x).steer = s.steer := rfl
@[simp] theorem State.setExecutor_meters (x : Executor) : (s.setExecutor x).meters = s.meters := rfl
@[simp] theorem State.setExecutor_counters (x : Executor) : (s.setExecutor x).counters = s.counters := rfl
@[simp] theorem State.setExecutor_numbering (x : Executor) : (s.setExecutor x).numbering = s.numbering := rfl
@[simp] theorem State.setExecutor_enums (x : Executor) : (s.setExecutor x).enums = s.enums := rfl
@[simp] theorem State.setExecutor_session (x : Executor) : (s.setExecutor x).session = s.session := rfl
@[simp] theorem State.setExecutor_params (x : Executor) : (s.setExecutor x).params = s.params := rfl
@[simp] theorem State.setExecutor_events (x : Executor) : (s.setExecutor x).events = s.events := rfl
@[simp] theorem State.setExecutor_choices (x : Executor) : (s.setExecutor x).choices = s.choices := rfl
@[simp] theorem State.setExecutor_pending (x : Executor) : (s.setExecutor x).pending = s.pending := rfl

/-! ### setCache -/

@[simp] theorem State.setCache_nodeTime (x : List CacheEntry) : (s.setCache x).nodeTime = s.nodeTime := rfl
@[simp] theorem State.setCache_store (x : List CacheEntry) : (s.setCache x).store = s.store := rfl
@[simp] theorem State.setCache_trunkA (x : List CacheEntry) : (s.setCache x).trunkA = s.trunkA := rfl
@[simp] theorem State.setCache_trunkB (x : List CacheEntry) : (s.setCache x).trunkB = s.trunkB := rfl
@[simp] theorem State.setCache_loc (x : List CacheEntry) : (s.setCache x).loc = s.loc := rfl
@[simp] theorem State.setCache_steer (x : List CacheEntry) : (s.setCache x).steer = s.steer := rfl
@[simp] theorem State.setCache_meters (x : List CacheEntry) : (s.setCache x).meters = s.meters := rfl
@[simp] theorem State.setCache_counters (x : List CacheEntry) : (s.setCache x).counters = s.counters := rfl
@[simp] theorem State.setCache_numbering (x : List CacheEntry) : (s.setCache x).numbering = s.numbering := rfl
@[simp] theorem State.setCache_enums (x : List CacheEntry) : (s.setCache x).enums = s.enums := rfl
@[simp] theorem State.setCache_session (x : List CacheEntry) : (s.setCache x).session = s.session := rfl
@[simp] theorem State.setCache_params (x : List CacheEntry) : (s.setCache x).params = s.params := rfl
@[simp] theorem State.setCache_events (x : List CacheEntry) : (s.setCache x).events = s.events := rfl
@[simp] theorem State.setCache_choices (x : List CacheEntry) : (s.setCache x).choices = s.choices := rfl
@[simp] theorem State.setCache_pending (x : List CacheEntry) : (s.setCache x).pending = s.pending := rfl

/-! ### endPending -/

@[simp] theorem State.endPending_nodeTime : (s.endPending).nodeTime = s.nodeTime := rfl
@[simp] theorem State.endPending_store : (s.endPending).store = s.store := rfl
@[simp] theorem State.endPending_trunkA : (s.endPending).trunkA = s.trunkA := rfl
@[simp] theorem State.endPending_trunkB : (s.endPending).trunkB = s.trunkB := rfl
@[simp] theorem State.endPending_loc : (s.endPending).loc = s.loc := rfl
@[simp] theorem State.endPending_steer : (s.endPending).steer = s.steer := rfl
@[simp] theorem State.endPending_meters : (s.endPending).meters = s.meters := rfl
@[simp] theorem State.endPending_counters : (s.endPending).counters = s.counters := rfl
@[simp] theorem State.endPending_numbering : (s.endPending).numbering = s.numbering := rfl
@[simp] theorem State.endPending_enums : (s.endPending).enums = s.enums := rfl
@[simp] theorem State.endPending_session : (s.endPending).session = s.session := rfl
@[simp] theorem State.endPending_params : (s.endPending).params = s.params := rfl
@[simp] theorem State.endPending_events : (s.endPending).events = s.events := rfl
@[simp] theorem State.endPending_choices : (s.endPending).choices = s.choices := rfl
@[simp] theorem State.endPending_pending : (s.endPending).pending = s.pending := rfl

/-! ### setMeter -/

@[simp] theorem State.setMeter_nodeTime (i : Nat) (m : Meter) : (s.setMeter i m).nodeTime = s.nodeTime := rfl
@[simp] theorem State.setMeter_store (i : Nat) (m : Meter) : (s.setMeter i m).store = s.store := rfl
@[simp] theorem State.setMeter_trunkA (i : Nat) (m : Meter) : (s.setMeter i m).trunkA = s.trunkA := rfl
@[simp] theorem State.setMeter_trunkB (i : Nat) (m : Meter) : (s.setMeter i m).trunkB = s.trunkB := rfl
@[simp] theorem State.setMeter_loc (i : Nat) (m : Meter) : (s.setMeter i m).loc = s.loc := rfl
@[simp] theorem State.setMeter_steer (i : Nat) (m : Meter) : (s.setMeter i m).steer = s.steer := rfl
@[simp] theorem State.setMeter_counters (i : Nat) (m : Meter) : (s.setMeter i m).counters = s.counters := rfl
@[simp] theorem State.setMeter_numbering (i : Nat) (m : Meter) : (s.setMeter i m).numbering = s.numbering := rfl
@[simp] theorem State.setMeter_enums (i : Nat) (m : Meter) : (s.setMeter i m).enums = s.enums := rfl
@[simp] theorem State.setMeter_session (i : Nat) (m : Meter) : (s.setMeter i m).session = s.session := rfl
@[simp] theorem State.setMeter_mgmt (i : Nat) (m : Meter) : (s.setMeter i m).mgmt = s.mgmt := rfl
@[simp] theorem State.setMeter_params (i : Nat) (m : Meter) : (s.setMeter i m).params = s.params := rfl
@[simp] theorem State.setMeter_events (i : Nat) (m : Meter) : (s.setMeter i m).events = s.events := rfl
@[simp] theorem State.setMeter_choices (i : Nat) (m : Meter) : (s.setMeter i m).choices = s.choices := rfl
@[simp] theorem State.setMeter_pending (i : Nat) (m : Meter) : (s.setMeter i m).pending = s.pending := rfl

/-! ### setCounter -/

@[simp] theorem State.setCounter_nodeTime (i : Nat) (c : EntryCounter) : (s.setCounter i c).nodeTime = s.nodeTime := rfl
@[simp] theorem State.setCounter_store (i : Nat) (c : EntryCounter) : (s.setCounter i c).store = s.store := rfl
@[simp] theorem State.setCounter_trunkA (i : Nat) (c : EntryCounter) : (s.setCounter i c).trunkA = s.trunkA := rfl
@[simp] theorem State.setCounter_trunkB (i : Nat) (c : EntryCounter) : (s.setCounter i c).trunkB = s.trunkB := rfl
@[simp] theorem State.setCounter_loc (i : Nat) (c : EntryCounter) : (s.setCounter i c).loc = s.loc := rfl
@[simp] theorem State.setCounter_steer (i : Nat) (c : EntryCounter) : (s.setCounter i c).steer = s.steer := rfl
@[simp] theorem State.setCounter_meters (i : Nat) (c : EntryCounter) : (s.setCounter i c).meters = s.meters := rfl
@[simp] theorem State.setCounter_numbering (i : Nat) (c : EntryCounter) : (s.setCounter i c).numbering = s.numbering := rfl
@[simp] theorem State.setCounter_enums (i : Nat) (c : EntryCounter) : (s.setCounter i c).enums = s.enums := rfl
@[simp] theorem State.setCounter_session (i : Nat) (c : EntryCounter) : (s.setCounter i c).session = s.session := rfl
@[simp] theorem State.setCounter_mgmt (i : Nat) (c : EntryCounter) : (s.setCounter i c).mgmt = s.mgmt := rfl
@[simp] theorem State.setCounter_params (i : Nat) (c : EntryCounter) : (s.setCounter i c).params = s.params := rfl
@[simp] theorem State.setCounter_events (i : Nat) (c : EntryCounter) : (s.setCounter i c).events = s.events := rfl
@[simp] theorem State.setCounter_choices (i : Nat) (c : EntryCounter) : (s.setCounter i c).choices = s.choices := rfl
@[simp] theorem State.setCounter_pending (i : Nat) (c : EntryCounter) : (s.setCounter i c).pending = s.pending := rfl

/-! ### setShadow -/

@[simp] theorem State.setShadow_nodeTime (b : Bank) : (s.setShadow b).nodeTime = s.nodeTime := by unfold State.setShadow; split <;> rfl
@[simp] theorem State.setShadow_store (b : Bank) : (s.setShadow b).store = s.store := by unfold State.setShadow; split <;> rfl
@[simp] theorem State.setShadow_trunkA (b : Bank) : (s.setShadow b).trunkA = s.trunkA := by unfold State.setShadow; split <;> rfl
@[simp] theorem State.setShadow_trunkB (b : Bank) : (s.setShadow b).trunkB = s.trunkB := by unfold State.setShadow; split <;> rfl
@[simp] theorem State.setShadow_loc (b : Bank) : (s.setShadow b).loc = s.loc := by unfold State.setShadow; split <;> rfl
@[simp] theorem State.setShadow_meters (b : Bank) : (s.setShadow b).meters = s.meters := by unfold State.setShadow; split <;> rfl
@[simp] theorem State.setShadow_counters (b : Bank) : (s.setShadow b).counters = s.counters := by unfold State.setShadow; split <;> rfl
@[simp] theorem State.setShadow_numbering (b : Bank) : (s.setShadow b).numbering = s.numbering := by unfold State.setShadow; split <;> rfl
@[simp] theorem State.setShadow_enums (b : Bank) : (s.setShadow b).enums = s.enums := by unfold State.setShadow; split <;> rfl
@[simp] theorem State.setShadow_session (b : Bank) : (s.setShadow b).session = s.session := by unfold State.setShadow; split <;> rfl
@[simp] theorem State.setShadow_mgmt (b : Bank) : (s.setShadow b).mgmt = s.mgmt := by unfold State.setShadow; split <;> rfl
@[simp] theorem State.setShadow_params (b : Bank) : (s.setShadow b).params = s.params := by unfold State.setShadow; split <;> rfl
@[simp] theorem State.setShadow_events (b : Bank) : (s.setShadow b).events = s.events := by unfold State.setShadow; split <;> rfl
@[simp] theorem State.setShadow_choices (b : Bank) : (s.setShadow b).choices = s.choices := by unfold State.setShadow; split <;> rfl
@[simp] theorem State.setShadow_pending (b : Bank) : (s.setShadow b).pending = s.pending := by unfold State.setShadow; split <;> rfl

/-! ### writeParam -/

@[simp] theorem State.writeParam_nodeTime (n v : Nat) : (s.writeParam n v).nodeTime = s.nodeTime := rfl
@[simp] theorem State.writeParam_store (n v : Nat) : (s.writeParam n v).store = s.store := rfl
@[simp] theorem State.writeParam_trunkA (n v : Nat) : (s.writeParam n v).trunkA = s.trunkA := rfl
@[simp] theorem State.writeParam_trunkB (n v : Nat) : (s.writeParam n v).trunkB = s.trunkB := rfl
@[simp] theorem State.writeParam_loc (n v : Nat) : (s.writeParam n v).loc = s.loc := rfl
@[simp] theorem State.writeParam_steer (n v : Nat) : (s.writeParam n v).steer = s.steer := rfl
@[simp] theorem State.writeParam_meters (n v : Nat) : (s.writeParam n v).meters = s.meters := rfl
@[simp] theorem State.writeParam_counters (n v : Nat) : (s.writeParam n v).counters = s.counters := rfl
@[simp] theorem State.writeParam_numbering (n v : Nat) : (s.writeParam n v).numbering = s.numbering := rfl
@[simp] theorem State.writeParam_enums (n v : Nat) : (s.writeParam n v).enums = s.enums := rfl
@[simp] theorem State.writeParam_session (n v : Nat) : (s.writeParam n v).session = s.session := rfl
@[simp] theorem State.writeParam_mgmt (n v : Nat) : (s.writeParam n v).mgmt = s.mgmt := rfl
@[simp] theorem State.writeParam_events (n v : Nat) : (s.writeParam n v).events = s.events := rfl
@[simp] theorem State.writeParam_choices (n v : Nat) : (s.writeParam n v).choices = s.choices := rfl
@[simp] theorem State.writeParam_pending (n v : Nat) : (s.writeParam n v).pending = s.pending := rfl

/-! ### closeSession -/

@[simp] theorem State.closeSession_nodeTime : (s.closeSession).nodeTime = s.nodeTime := rfl
@[simp] theorem State.closeSession_store : (s.closeSession).store = s.store := rfl
@[simp] theorem State.closeSession_trunkA : (s.closeSession).trunkA = s.trunkA := rfl
@[simp] theorem State.closeSession_trunkB : (s.closeSession).trunkB = s.trunkB := rfl
@[simp] theorem State.closeSession_loc : (s.closeSession).loc = s.loc := rfl
@[simp] theorem State.closeSession_steer : (s.closeSession).steer = s.steer := rfl
@[simp] theorem State.closeSession_meters : (s.closeSession).meters = s.meters := rfl
@[simp] theorem State.closeSession_counters : (s.closeSession).counters = s.counters := rfl
@[simp] theorem State.closeSession_numbering : (s.closeSession).numbering = s.numbering := rfl
@[simp] theorem State.closeSession_enums : (s.closeSession).enums = s.enums := rfl
@[simp] theorem State.closeSession_mgmt : (s.closeSession).mgmt = s.mgmt := rfl
@[simp] theorem State.closeSession_params : (s.closeSession).params = s.params := rfl
@[simp] theorem State.closeSession_events : (s.closeSession).events = s.events := rfl
@[simp] theorem State.closeSession_choices : (s.closeSession).choices = s.choices := rfl
@[simp] theorem State.closeSession_pending : (s.closeSession).pending = s.pending := rfl

/-! ### swapBanks -/

@[simp] theorem State.swapBanks_nodeTime : (s.swapBanks).nodeTime = s.nodeTime := rfl
@[simp] theorem State.swapBanks_store : (s.swapBanks).store = s.store := rfl
@[simp] theorem State.swapBanks_trunkA : (s.swapBanks).trunkA = s.trunkA := rfl
@[simp] theorem State.swapBanks_trunkB : (s.swapBanks).trunkB = s.trunkB := rfl
@[simp] theorem State.swapBanks_loc : (s.swapBanks).loc = s.loc := rfl
@[simp] theorem State.swapBanks_meters : (s.swapBanks).meters = s.meters := rfl
@[simp] theorem State.swapBanks_counters : (s.swapBanks).counters = s.counters := rfl
@[simp] theorem State.swapBanks_numbering : (s.swapBanks).numbering = s.numbering := rfl
@[simp] theorem State.swapBanks_enums : (s.swapBanks).enums = s.enums := rfl
@[simp] theorem State.swapBanks_mgmt : (s.swapBanks).mgmt = s.mgmt := rfl
@[simp] theorem State.swapBanks_params : (s.swapBanks).params = s.params := rfl
@[simp] theorem State.swapBanks_events : (s.swapBanks).events = s.events := rfl
@[simp] theorem State.swapBanks_choices : (s.swapBanks).choices = s.choices := rfl
@[simp] theorem State.swapBanks_pending : (s.swapBanks).pending = s.pending := rfl

/-! ### chosen -/

@[simp] theorem State.chosen_nodeTime : (s.chosen).nodeTime = s.nodeTime := rfl
@[simp] theorem State.chosen_store : (s.chosen).store = s.store := rfl
@[simp] theorem State.chosen_trunkA : (s.chosen).trunkA = s.trunkA := rfl
@[simp] theorem State.chosen_trunkB : (s.chosen).trunkB = s.trunkB := rfl
@[simp] theorem State.chosen_loc : (s.chosen).loc = s.loc := rfl
@[simp] theorem State.chosen_steer : (s.chosen).steer = s.steer := rfl
@[simp] theorem State.chosen_meters : (s.chosen).meters = s.meters := rfl
@[simp] theorem State.chosen_counters : (s.chosen).counters = s.counters := rfl
@[simp] theorem State.chosen_numbering : (s.chosen).numbering = s.numbering := rfl
@[simp] theorem State.chosen_enums : (s.chosen).enums = s.enums := rfl
@[simp] theorem State.chosen_session : (s.chosen).session = s.session := rfl
@[simp] theorem State.chosen_mgmt : (s.chosen).mgmt = s.mgmt := rfl
@[simp] theorem State.chosen_params : (s.chosen).params = s.params := rfl
@[simp] theorem State.chosen_events : (s.chosen).events = s.events := rfl
@[simp] theorem State.chosen_pending : (s.chosen).pending = s.pending := rfl

/-! ### takeEvents -/

@[simp] theorem State.takeEvents_nodeTime (n : Nat) : (s.takeEvents n).nodeTime = s.nodeTime := rfl
@[simp] theorem State.takeEvents_store (n : Nat) : (s.takeEvents n).store = s.store := rfl
@[simp] theorem State.takeEvents_trunkA (n : Nat) : (s.takeEvents n).trunkA = s.trunkA := rfl
@[simp] theorem State.takeEvents_trunkB (n : Nat) : (s.takeEvents n).trunkB = s.trunkB := rfl
@[simp] theorem State.takeEvents_loc (n : Nat) : (s.takeEvents n).loc = s.loc := rfl
@[simp] theorem State.takeEvents_steer (n : Nat) : (s.takeEvents n).steer = s.steer := rfl
@[simp] theorem State.takeEvents_meters (n : Nat) : (s.takeEvents n).meters = s.meters := rfl
@[simp] theorem State.takeEvents_counters (n : Nat) : (s.takeEvents n).counters = s.counters := rfl
@[simp] theorem State.takeEvents_numbering (n : Nat) : (s.takeEvents n).numbering = s.numbering := rfl
@[simp] theorem State.takeEvents_enums (n : Nat) : (s.takeEvents n).enums = s.enums := rfl
@[simp] theorem State.takeEvents_session (n : Nat) : (s.takeEvents n).session = s.session := rfl
@[simp] theorem State.takeEvents_mgmt (n : Nat) : (s.takeEvents n).mgmt = s.mgmt := rfl
@[simp] theorem State.takeEvents_params (n : Nat) : (s.takeEvents n).params = s.params := rfl
@[simp] theorem State.takeEvents_choices (n : Nat) : (s.takeEvents n).choices = s.choices := rfl
@[simp] theorem State.takeEvents_pending (n : Nat) : (s.takeEvents n).pending = s.pending := rfl

/-! ### The parts by port -/

theorem otherPort_ne (p : TrunkPort) : otherPort p ≠ p := by cases p <;> decide

@[simp] theorem otherPort_otherPort (p : TrunkPort) : otherPort (otherPort p) = p := by cases p <;> rfl

@[simp] theorem State.trunk_setTrunk_same (p : TrunkPort) (x : Trunk) : (s.setTrunk p x).trunk p = x := by
  cases p <;> rfl

@[simp] theorem State.trunk_setTrunk_other (p : TrunkPort) (x : Trunk) :
    (s.setTrunk p x).trunk (otherPort p) = s.trunk (otherPort p) := by cases p <;> rfl

theorem State.trunk_setTrunk (p q : TrunkPort) (x : Trunk) :
    (s.setTrunk p x).trunk q = if q = p then x else s.trunk q := by cases p <;> cases q <;> rfl

@[simp] theorem State.setTrunk_setTrunk (p : TrunkPort) (x y : Trunk) : (s.setTrunk p x).setTrunk p y = s.setTrunk p y := by
  cases p <;> rfl

@[simp] theorem State.setTrunk_self (p : TrunkPort) : s.setTrunk p (s.trunk p) = s := by cases p <;> rfl

theorem State.onTrunk_eq (p : TrunkPort) (f : Trunk → Trunk) : s.onTrunk p f = s.setTrunk p (f (s.trunk p)) := rfl

theorem State.onTx_eq (p : TrunkPort) (f : Transmitter → Transmitter) :
    s.onTx p f = s.setTrunk p { s.trunk p with tx := f (s.trunk p).tx } := rfl

theorem State.onRx_eq (p : TrunkPort) (f : Receiver → Receiver) :
    s.onRx p f = s.setTrunk p { s.trunk p with rx := f (s.trunk p).rx } := rfl

theorem State.onLink_eq (p : TrunkPort) (f : Link → Link) :
    s.onLink p f = s.setTrunk p { s.trunk p with link := f (s.trunk p).link } := rfl

theorem State.raiseTrunk_eq (p : TrunkPort) (k : TrunkStat) :
    s.raiseTrunk p k = s.setTrunk p { s.trunk p with stats := (s.trunk p).stats.on satInc k } := rfl

theorem State.setReception_eq (p : TrunkPort) (x : Reception) :
    s.setReception p x = s.setTrunk p { s.trunk p with rx := { (s.trunk p).rx with reception := x } } := rfl

theorem State.answer_eq (p : TrunkPort) (a : Answer) :
    s.answer p a = s.setTrunk p { s.trunk p with rx := { (s.trunk p).rx with answers := (s.trunk p).rx.answers ++ [a] } } :=
  rfl

theorem State.tx_eq (p : TrunkPort) : s.tx p = (s.trunk p).tx := rfl

@[simp] theorem State.record_setRecord_same (r : Nat) (f : FrameRecord) : (s.setRecord r f).record r = f := by
  simp [State.record, State.setRecord]

theorem State.record_setRecord (r x : Nat) (f : FrameRecord) :
    (s.setRecord r f).record x = if x = r then f else s.record x := by
  simp [State.record, State.setRecord, Sparse.get_set]

@[simp] theorem State.queues_setQueues_same (q : Port) (x : QueueSet) : (s.setQueues q x).queues q = x := by
  cases q <;> rfl

theorem State.queues_setQueues (q y : Port) (x : QueueSet) :
    (s.setQueues q x).queues y = if y = q then x else s.queues y := by cases q <;> cases y <;> rfl

@[simp] theorem State.queues_setRecord (r : Nat) (f : FrameRecord) (q : Port) : (s.setRecord r f).queues q = s.queues q := by
  cases q <;> rfl

@[simp] theorem State.backlog_setBacklog_same (q : Port) (x : List Nat) : (s.setBacklog q x).backlog q = x := by
  cases q <;> rfl

theorem State.backlog_setBacklog (q y : Port) (x : List Nat) :
    (s.setBacklog q x).backlog y = if y = q then x else s.backlog y := by cases q <;> cases y <;> rfl

@[simp] theorem State.activeBank_setShadow (b : Bank) : (s.setShadow b).activeBank = s.activeBank := by
  unfold State.setShadow State.activeBank; split <;> simp_all [Steering.bank]

@[simp] theorem State.selector_setShadow (b : Bank) : (s.setShadow b).steer.selector = s.steer.selector := by
  unfold State.setShadow; split <;> rfl

@[simp] theorem State.generation_setShadow (b : Bank) : (s.setShadow b).steer.generation = s.steer.generation := by
  unfold State.setShadow; split <;> rfl

@[simp] theorem State.shadowBank_setShadow (b : Bank) : (s.setShadow b).shadowBank = b := by
  unfold State.setShadow State.shadowBank; split <;> simp_all [Steering.bank, otherBank]

theorem State.meter_setMeter (i j : Nat) (m : Meter) : (s.setMeter i m).meter j = if j = i then m else s.meter j := by
  simp [State.meter, State.setMeter, Sparse.get_set]

theorem State.counter_setCounter (i j : Nat) (c : EntryCounter) :
    (s.setCounter i c).counter j = if j = i then c else s.counter j := by
  simp [State.counter, State.setCounter, Sparse.get_set]

theorem Bank.entry_setEntry (b : Bank) (i j : Nat) (e : SteerEntry) :
    (b.setEntry i e).entry j = if j = i then e else b.entry j := by simp [Bank.entry, Bank.setEntry, Sparse.get_set]

theorem Bank.mapEntry_setMapEntry (b : Bank) (i j : Nat) (e : MapEntry) :
    (b.setMapEntry i e).mapEntry j = if j = i then e else b.mapEntry j := by
  simp [Bank.mapEntry, Bank.setMapEntry, Sparse.get_set]

@[simp] theorem QueueSet.get_set_same (q : QueueSet) (c : TrafficClass) (x : List Nat) : (q.set c x).get c = x := by
  have h : c = 0 ∨ c = 1 ∨ c = 2 ∨ c = 3 := by revert c; decide
  rcases h with rfl | rfl | rfl | rfl <;> rfl

end Sys2Proof.Machine
end

