-- ==== Sys2Proof/Laws/Store.lean ====
section
/-! SUPPORT. What the shared operations over the frame store, the event queue and the egress queues can do, said once: all that
they leave alone (`Calm`), what a store with room makes of a release, and what they keep in canonical form. -/

namespace Sys2Proof.Machine

/-! ### What store, event and queue operations leave alone -/

/-- The parts of the node that no operation of the store, of the event queue or of an egress queue touches. -/
structure Calm (s t : State) : Prop where
  nodeTime : t.nodeTime = s.nodeTime
  steer : t.steer = s.steer
  meters : t.meters = s.meters
  counters : t.counters = s.counters
  numbering : t.numbering = s.numbering
  enums : t.enums = s.enums
  session : t.session = s.session
  params : t.params = s.params
  choices : t.choices = s.choices
  pending : t.pending = s.pending
  rx : ∀ p, (t.trunk p).rx = (s.trunk p).rx
  tx : ∀ p, (t.trunk p).tx = (s.trunk p).tx
  link : ∀ p, (t.trunk p).link = (s.trunk p).link
  lineOut : ∀ p, (t.trunk p).lineOut = (s.trunk p).lineOut
  egress : t.loc.egress = s.loc.egress
  lastOut : t.loc.lastOut = s.loc.lastOut
  requests : t.mgmt.queue = s.mgmt.queue
  cache : t.mgmt.cache = s.mgmt.cache

variable {s t u : State}

theorem Calm.refl (s : State) : Calm s s := by constructor <;> intros <;> rfl

theorem Calm.trans (h : Calm s t) (g : Calm t u) : Calm s u where
  nodeTime := g.nodeTime.trans h.nodeTime
  steer := g.steer.trans h.steer
  meters := g.meters.trans h.meters
  counters := g.counters.trans h.counters
  numbering := g.numbering.trans h.numbering
  enums := g.enums.trans h.enums
  session := g.session.trans h.session
  params := g.params.trans h.params
  choices := g.choices.trans h.choices
  pending := g.pending.trans h.pending
  rx p := (g.rx p).trans (h.rx p)
  tx p := (g.tx p).trans (h.tx p)
  link p := (g.link p).trans (h.link p)
  lineOut p := (g.lineOut p).trans (h.lineOut p)
  egress := g.egress.trans h.egress
  lastOut := g.lastOut.trans h.lastOut
  requests := g.requests.trans h.requests
  cache := g.cache.trans h.cache

/-- A run of calm operations over a list is calm. -/
theorem Calm.foldl {α : Type} (f : State → α → State) (hf : ∀ u a, Calm u (f u a)) (l : List α) (s : State) :
    Calm s (l.foldl f s) := by
  induction l generalizing s with
  | nil => exact .refl s
  | cons a l ih => exact (hf s a).trans (ih (f s a))

variable (s)

theorem State.calm_setRecord (r : Nat) (f : FrameRecord) : Calm s (s.setRecord r f) := by
  constructor <;> intros <;> rfl

theorem State.calm_setWatermark (w : Watermark) : Calm s (s.setWatermark w) := by constructor <;> intros <;> rfl

theorem State.calm_returnRoom (r : Nat) : Calm s (s.returnRoom r) := by constructor <;> intros <;> rfl

theorem State.calm_setNotice : Calm s s.setNotice := by constructor <;> intros <;> rfl

theorem State.calm_setIngress (x : Ingress) : Calm s (s.setIngress x) := by constructor <;> intros <;> rfl

theorem State.calm_setQueues (q : Port) (x : QueueSet) : Calm s (s.setQueues q x) := by
  constructor <;> intros <;> cases q <;> first | rfl | (rename_i p; cases p <;> rfl)

theorem State.calm_raiseTrunk (p : TrunkPort) (k : TrunkStat) : Calm s (s.raiseTrunk p k) := by
  constructor <;> intros <;> cases p <;> first | rfl | (rename_i q; cases q <;> rfl)

theorem State.calm_raiseLocal (k : LocalStat) : Calm s (s.raiseLocal k) := by constructor <;> intros <;> rfl

theorem State.calm_raiseMgmt (k : MgmtStat) : Calm s (s.raiseMgmt k) := by constructor <;> intros <;> rfl

theorem State.calm_raiseSkip (q : Port) : Calm s (s.raiseSkip q) := by
  cases q
  · exact s.calm_raiseTrunk .a _
  · exact s.calm_raiseTrunk .b _
  · exact s.calm_raiseLocal _

theorem State.calm_writeFrameByte (r i : Nat) (b : Byte) : Calm s (s.writeFrameByte r i b) := by
  unfold State.writeFrameByte
  split
  · split
    · constructor <;> intros <;> rfl
    · exact .refl s
  · exact .refl s

theorem State.calm_fill (r : Nat) (l : List Byte) (i : Nat) : Calm s (s.fill r i l) := by
  induction l generalizing s i with
  | nil => exact .refl s
  | cons b l ih => exact (s.calm_writeFrameByte r i b).trans (ih _ _)

theorem State.calm_storeSteered (r : Nat) (h : Header) : Calm s (s.storeSteered r h) :=
  (((s.calm_writeFrameByte r 0 _).trans (State.calm_writeFrameByte _ r 1 _)).trans
    (State.calm_writeFrameByte _ r 4 _)).trans (State.calm_writeFrameByte _ r 5 _)

theorem State.calm_announce : Calm s s.announce := by
  unfold State.announce
  split
  · split
    · exact .refl s
    · constructor <;> intros <;> rfl
  · exact .refl s

theorem State.calm_append (k : EventKind) (p : Option Port) (d : Option Half) : Calm s (s.append k p d) := by
  unfold State.append; split <;> constructor <;> intros <;> rfl

theorem State.calm_enqueue (q : Port) (c : TrafficClass) (r : Nat) : Calm s (s.enqueue q c r) :=
  (s.calm_setQueues q _).trans (State.calm_setRecord _ r _)

theorem State.calm_place (q : Port) (c : TrafficClass) (r : Nat) : Calm s (s.place q c r) := by
  unfold State.place; split
  · exact s.calm_enqueue q c r
  · exact s.calm_raiseSkip q

theorem State.calm_placeByDest (d : Station) (r : Nat) : Calm s (s.placeByDest d r) := by
  unfold State.placeByDest; split
  · exact s.calm_place _ 0 r
  · exact .refl s

theorem State.calm_examineQuietly : Calm s s.examineQuietly := by
  unfold State.examineQuietly; split <;> split
  · exact (s.calm_setWatermark _).trans (State.calm_append _ _ _ _)
  · exact .refl s
  · exact s.calm_setWatermark _
  · exact .refl s

theorem State.calm_releaseSkippedNotice (r : Nat) : Calm s (s.releaseSkippedNotice r) := by
  unfold State.releaseSkippedNotice; split
  · exact ((s.calm_returnRoom r).trans (State.calm_examineQuietly _)).trans (State.calm_announce _)
  · exact .refl s

theorem State.calm_takeRoom {src : Source} {len r : Nat} (h : s.takeRoom src len = some (r, t)) : Calm s t := by
  unfold State.takeRoom at h
  split at h
  · cases h
  · split at h
    · cases h; constructor <;> intros <;> rfl
    · cases h

theorem State.calm_sendNotice (e : EventRecord) : Calm s (s.sendNotice e) := by
  unfold State.sendNotice; split
  · exact .refl s
  · next h =>
    exact (((((s.calm_takeRoom h).trans (State.calm_examineQuietly _)).trans (State.calm_fill _ _ _ _)).trans
      (State.calm_placeByDest _ _ _)).trans (State.calm_releaseSkippedNotice _ _)).trans (State.calm_setNotice _)

theorem State.calm_raiseEvent (k : EventKind) (p : Option Port) (d : Option Half) : Calm s (s.raiseEvent k p d) := by
  unfold State.raiseEvent; dsimp only; split
  · exact (s.calm_append k p d).trans (State.calm_sendNotice _ _)
  · exact s.calm_append k p d

theorem State.calm_examine : Calm s s.examine := by
  unfold State.examine; split <;> split
  · exact (s.calm_setWatermark _).trans (State.calm_raiseEvent _ _ _ _)
  · exact .refl s
  · exact s.calm_setWatermark _
  · exact .refl s

theorem State.calm_askRoom {src : Source} {len r : Nat} (h : s.askRoom src len = .granted r t) : Calm s t := by
  unfold State.askRoom at h
  split at h
  · next hx => cases h; exact (s.calm_takeRoom hx).trans (State.calm_examine _)
  · cases h

theorem State.calm_release (r : Nat) : Calm s (s.release r) :=
  ((s.calm_returnRoom r).trans (State.calm_examine _)).trans (State.calm_announce _)

theorem State.calm_dropRef (r : Nat) : Calm s (s.dropRef r) := by
  unfold State.dropRef; split
  · exact .refl s
  · dsimp only; split
    · exact (s.calm_setRecord r _).trans (State.calm_release _ r)
    · exact s.calm_setRecord r _

theorem State.calm_unwatch (q : Port) (r : Nat) : Calm s (s.unwatch q r) := by
  unfold State.unwatch; split
  · split
    · constructor <;> intros <;> rfl
    · exact .refl s
  · exact .refl s

theorem State.calm_removeEntry (q : Port) (e : Entry) : Calm s (s.removeEntry q e) :=
  ((s.calm_setQueues q _).trans (State.calm_unwatch _ q _)).trans (State.calm_dropRef _ _)

theorem State.calm_removeEntries (q : Port) (f : Entry → Bool) : Calm s (s.removeEntries q f) :=
  Calm.foldl _ (fun u e => u.calm_removeEntry q e) _ s

theorem State.calm_releaseUnheld (r : Nat) : Calm s (s.releaseUnheld r) := by
  unfold State.releaseUnheld; split
  · exact s.calm_release r
  · exact .refl s

theorem State.calm_sendNumbering (p : TrunkPort) (h : Header) (l : List Byte) : Calm s (s.sendNumbering p h l) := by
  unfold State.sendNumbering; split
  · exact .refl s
  · next h1 =>
    exact (((s.calm_askRoom h1).trans (State.calm_fill _ _ _ _)).trans (State.calm_place _ _ _ _)).trans
      (State.calm_releaseUnheld _ _)

theorem State.calm_abandon (r : Option Nat) : Calm s (s.abandon r) := by
  cases r
  · exact .refl s
  · exact s.calm_release _

theorem State.calm_finishPlacement (r : Nat) : Calm s (s.finishPlacement r) := by
  unfold State.finishPlacement; split
  · exact s.calm_release r
  · exact s.calm_setRecord r _

/-! ### The management engine -/

theorem State.writeFrameByte_mgmt (r i : Nat) (b : Byte) : (s.writeFrameByte r i b).mgmt = s.mgmt := by
  unfold State.writeFrameByte
  split
  · split <;> rfl
  · rfl

theorem State.fill_mgmt (r : Nat) (l : List Byte) (i : Nat) : (s.fill r i l).mgmt = s.mgmt := by
  induction l generalizing s i with
  | nil => rfl
  | cons b l ih => exact (ih _ _).trans (s.writeFrameByte_mgmt r i b)

theorem State.announce_mgmt : s.announce.mgmt = s.mgmt := by
  unfold State.announce
  split
  · split <;> rfl
  · rfl

theorem State.append_mgmt (k : EventKind) (p : Option Port) (d : Option Half) : (s.append k p d).mgmt = s.mgmt := by
  unfold State.append; split <;> rfl

theorem State.place_mgmt (q : Port) (c : TrafficClass) (r : Nat) : (s.place q c r).mgmt = s.mgmt := by
  unfold State.place State.enqueue; split
  · exact s.setQueues_mgmt q _
  · exact s.raiseSkip_mgmt q

theorem State.placeByDest_mgmt (d : Station) (r : Nat) : (s.placeByDest d r).mgmt = s.mgmt := by
  unfold State.placeByDest; split
  · exact s.place_mgmt _ 0 r
  · rfl

theorem State.examineQuietly_mgmt : s.examineQuietly.mgmt = s.mgmt := by
  unfold State.examineQuietly; split <;> split
  · exact State.append_mgmt _ _ _ _
  · rfl
  · rfl
  · rfl

theorem State.releaseSkippedNotice_mgmt (r : Nat) : (s.releaseSkippedNotice r).mgmt = s.mgmt := by
  unfold State.releaseSkippedNotice; split
  · exact (State.announce_mgmt _).trans (State.examineQuietly_mgmt _)
  · rfl

theorem State.takeRoom_mgmt {src : Source} {len r : Nat} (h : s.takeRoom src len = some (r, t)) : t.mgmt = s.mgmt := by
  unfold State.takeRoom at h
  split at h
  · cases h
  · split at h <;> cases h
    rfl

theorem State.sendNotice_mgmt (e : EventRecord) : (s.sendNotice e).mgmt = s.mgmt := by
  unfold State.sendNotice; split
  · rfl
  · next h =>
    rw [State.setNotice_mgmt, State.releaseSkippedNotice_mgmt, State.placeByDest_mgmt, State.fill_mgmt,
      State.examineQuietly_mgmt, s.takeRoom_mgmt h]

theorem State.raiseEvent_mgmt (k : EventKind) (p : Option Port) (d : Option Half) :
    (s.raiseEvent k p d).mgmt = s.mgmt := by
  unfold State.raiseEvent; dsimp only; split
  · exact (State.sendNotice_mgmt _ _).trans (s.append_mgmt k p d)
  · exact s.append_mgmt k p d

theorem State.examine_mgmt : s.examine.mgmt = s.mgmt := by
  unfold State.examine; split <;> split
  · exact State.raiseEvent_mgmt (s.setWatermark .low) .storeLow none none
  · rfl
  · rfl
  · rfl

theorem State.askRoom_mgmt {src : Source} {len r : Nat} (h : s.askRoom src len = .granted r t) : t.mgmt = s.mgmt := by
  unfold State.askRoom at h
  split at h
  · next hx => cases h; exact (State.examine_mgmt _).trans (s.takeRoom_mgmt hx)
  · cases h

theorem State.release_mgmt (r : Nat) : (s.release r).mgmt = s.mgmt :=
  (State.announce_mgmt _).trans (State.examine_mgmt _)

theorem State.dropRef_mgmt (r : Nat) : (s.dropRef r).mgmt = s.mgmt := by
  unfold State.dropRef; split
  · rfl
  · dsimp only; split
    · exact State.release_mgmt _ r
    · rfl

/-- With no reset pending nothing is watched. -/
theorem State.unwatch_of_not_pending (h : s.resetPending = false) (q : Port) (r : Nat) : s.unwatch q r = s := by
  unfold State.unwatch
  unfold State.resetPending at h
  split <;> simp_all

theorem State.resetPending_of_mgmt (h : t.mgmt = s.mgmt) : t.resetPending = s.resetPending := by
  simp [State.resetPending, h]

theorem State.resetDue_of_mgmt (h : t.mgmt = s.mgmt) : t.resetDue = s.resetDue := by
  simp [State.resetDue, h]

/-- A reset that is due is pending. -/
theorem State.resetDue_of_not_pending (h : s.resetPending = false) : s.resetDue = false := by
  unfold State.resetPending at h
  unfold State.resetDue
  split <;> simp_all

/-- No reset is performed at an event that leaves none due. -/
theorem State.settle_of_not_due (h : s.resetDue = false) : s.settle = s := by
  unfold State.settle
  unfold State.resetDue at h
  cases hx : s.mgmt.executor <;> simp_all
  intro hn; simp [hn] at h

theorem State.removeEntry_mgmt (h : s.resetPending = false) (q : Port) (e : Entry) : (s.removeEntry q e).mgmt = s.mgmt := by
  unfold State.removeEntry
  rw [State.dropRef_mgmt, State.unwatch_of_not_pending _ (by simpa [State.resetPending] using h), State.setQueues_mgmt]

theorem State.removeEntries_mgmt (h : s.resetPending = false) (q : Port) (f : Entry → Bool) :
    (s.removeEntries q f).mgmt = s.mgmt := by
  unfold State.removeEntries
  suffices ∀ (l : List Entry) (u : State), u.mgmt = s.mgmt → (l.foldl (fun t e => t.removeEntry q e) u).mgmt = s.mgmt from
    this _ s rfl
  intro l
  induction l with
  | nil => exact fun u hu => hu
  | cons e l ih =>
    exact fun u hu => ih _ ((u.removeEntry_mgmt ((State.resetPending_of_mgmt s hu).trans h) q e).trans hu)

/-! ### A store with room -/

/-- The watermark examined in a store with room: it may be re-armed, and nothing else happens (R41). -/
theorem State.examine_roomy (h : s.roomy) : ∃ w, s.examine = s.setWatermark w ∧ (s.setWatermark w).roomy := by
  unfold State.examine
  rcases h with h | h
  · rw [h]
    dsimp only
    split
    · next hr => exact ⟨.armed, rfl, .inr (Nat.le_trans (by decide) hr)⟩
    · exact ⟨.low, by unfold State.setWatermark; rw [← h], .inl rfl⟩
  · cases hw : s.store.watermark
    · dsimp only
      rw [if_neg (Nat.not_lt.2 h)]
      exact ⟨.armed, by unfold State.setWatermark; rw [← hw], .inr h⟩
    · dsimp only
      split
      · exact ⟨.armed, rfl, .inr h⟩
      · exact ⟨.low, by unfold State.setWatermark; rw [← hw], .inl rfl⟩

/-- The state a granted admission leaves before the watermark is examined (R30). -/
def State.taken (src : Source) (len r : Nat) (rest : List Nat) : State :=
  { s with
    store :=
      { s.store with
        freeRecs := rest
        freePages := s.store.freePages.drop (pagesNeeded len)
        held := s.store.held.on (· + pagesNeeded len) src
        recs := Sparse.set FrameRecord.blank s.store.recs r
          { state := .filling, source := src, size := 10 + len
            pages := s.store.freePages.take (pagesNeeded len), arrival := s.nodeTime, refs := 0 } } }

/-- An admission with all three conditions met takes the head record and the head pages (R30 to R32). -/
theorem State.takeRoom_granted {src : Source} {len r : Nat} {rest : List Nat} (hr : s.store.freeRecs = r :: rest)
    (hf : pagesNeeded len + reserveOf src ≤ s.store.freePages.length)
    (hq : s.store.held.get src + pagesNeeded len ≤ s.quota src) :
    s.takeRoom src len = some (r, s.taken src len r rest) := by
  unfold State.takeRoom State.roomFor
  rw [hr]
  simp [hf, hq, State.taken]

/-- An admission with one of the three conditions failed takes nothing (R31, R32). -/
theorem State.askRoom_refused {src : Source} {len : Nat} (h : s.store.freeRecs = [] ∨
      s.store.freePages.length < pagesNeeded len + reserveOf src ∨
      s.quota src < s.store.held.get src + pagesNeeded len) :
    s.askRoom src len = .refused (decide (s.quota src < pagesNeeded len)) := by
  unfold State.askRoom State.takeRoom State.roomFor
  rcases h with h | h | h
  · simp [h]
  · cases s.store.freeRecs
    · rfl
    · dsimp only; rw [if_neg]; simp; omega
  · cases s.store.freeRecs
    · rfl
    · dsimp only; rw [if_neg]; simp; omega

/-- An admission that leaves a reserve of pages, or made while the watermark is LOW, raises no event. -/
theorem State.askRoom_roomy {src : Source} {len r : Nat} {rest : List Nat} (hr : s.store.freeRecs = r :: rest)
    (hf : pagesNeeded len + reserveOf src ≤ s.store.freePages.length)
    (hq : s.store.held.get src + pagesNeeded len ≤ s.quota src)
    (hw : s.store.watermark = .low ∨ pagesNeeded len + Config.reserve ≤ s.store.freePages.length) :
    ∃ w, s.askRoom src len = .granted r ((s.taken src len r rest).setWatermark w) ∧
      ((s.taken src len r rest).setWatermark w).roomy := by
  obtain ⟨w, h1, h2⟩ := (s.taken src len r rest).examine_roomy (by
    rcases hw with h | h
    · exact .inl h
    · exact .inr (by simp [State.taken]; omega))
  exact ⟨w, by simp [State.askRoom, s.takeRoom_granted hr hf hq, h1], h2⟩

/-- A release in a store with room: the record's pages and number go to the tails of the free lists; the watermark, and the
releases local ingress has been told of, are all that may change beside. -/
theorem State.release_roomy (h : s.roomy) (r : Nat) :
    ∃ w x, s.release r = ((s.returnRoom r).setWatermark w).setIngress x ∧ ((s.release r).roomy) ∧
      ((∀ p n, s.loc.ingress ≠ .waitRoom p n) → x = s.loc.ingress) := by
  have hf : s.store.freePages.length ≤ (s.returnRoom r).store.freePages.length := by
    simp [State.returnRoom]
  obtain ⟨w, hw, hroom⟩ := (s.returnRoom r).examine_roomy (h.imp id fun h => Nat.le_trans h hf)
  unfold State.release
  rw [hw]
  unfold State.announce
  split
  · next p n hi =>
    split
    · exact ⟨w, s.loc.ingress, rfl, hroom, fun _ => rfl⟩
    · exact ⟨w, .waitRoom p (n + 1), rfl, hroom, fun hn => absurd hi (hn p n)⟩
  · exact ⟨w, s.loc.ingress, rfl, hroom, fun _ => rfl⟩

/-! ### Bytes of a frame -/

theorem State.writeFrameByte_record (r i x : Nat) (b : Byte) : (s.writeFrameByte r i b).record x = s.record x := by
  unfold State.writeFrameByte
  split
  · split <;> rfl
  · rfl

theorem State.fill_record (r : Nat) (l : List Byte) (i x : Nat) : (s.fill r i l).record x = s.record x := by
  induction l generalizing s i with
  | nil => rfl
  | cons b l ih => exact (ih _ _).trans (s.writeFrameByte_record r i x b)

/-- Bytes written within a frame's first page are read back, and its other bytes there are kept (R35). -/
theorem State.frameByte_fill (r pg : Nat) (rest : List Nat) (hp : (s.record r).pages = pg :: rest) (l : List Byte) (i : Nat)
    (h64 : i + l.length ≤ Config.pageSize) (hs : i + l.length ≤ (s.record r).size) (j : Nat) (hj : j < Config.pageSize) :
    (s.fill r i l).frameByte r j = if i ≤ j ∧ j < i + l.length then l.getD (j - i) 0 else s.frameByte r j := by
  have addr : ∀ u : State, u.record r = s.record r → ∀ k, k < Config.pageSize →
      (u.record r).addr k = some (pg * Config.pageSize + k) := by
    intro u hu k hk
    simp [FrameRecord.addr, hu, hp, Nat.div_eq_of_lt hk, Nat.mod_eq_of_lt hk]
  induction l generalizing s i with
  | nil => simp [State.fill]
  | cons b l ih =>
    simp only [List.length_cons] at h64 hs ⊢
    have hr := s.writeFrameByte_record r i r b
    rw [State.fill, ih (s.writeFrameByte r i b) (by rw [hr]; exact hp) (i + 1) (by omega) (by rw [hr]; omega)
      (fun u hu => addr u (hu.trans hr))]
    have hw : (s.writeFrameByte r i b).frameByte r j = if j = i then b else s.frameByte r j := by
      have hm : (s.writeFrameByte r i b).store.mem = Memory.write s.store.mem (pg * Config.pageSize + i) b := by
        unfold State.writeFrameByte
        rw [if_pos (by omega), addr s rfl i (by omega)]
      simp only [State.frameByte, addr s rfl j hj, addr _ hr j hj, hm, Memory.read_write]
      by_cases h : j = i
      · simp [h]
      · rw [if_neg (by omega), if_neg h]
    rw [hw]
    by_cases h1 : j = i
    · simp [h1]
    · by_cases h2 : i + 1 ≤ j ∧ j < i + 1 + l.length
      · obtain ⟨k, rfl⟩ : ∃ k, j = i + 1 + k := ⟨j - (i + 1), by omega⟩
        rw [if_pos h2, if_pos (by omega), show i + 1 + k - i = k + 1 by omega, show i + 1 + k - (i + 1) = k by omega]
        rfl
      · rw [if_neg h2, if_neg h1, if_neg (by omega)]

/-- A reference dropped in a store with room: nothing but the frame store, and what local ingress has been told, changes;
the bytes of the pages stay. -/
theorem State.dropRef_roomy (h : s.roomy) (r : Nat) :
    ∃ st x, s.dropRef r = ({ s with store := st } : State).setIngress x ∧ st.mem = s.store.mem ∧ (s.dropRef r).roomy := by
  unfold State.dropRef
  split
  · exact ⟨s.store, s.loc.ingress, rfl, rfl, h⟩
  · dsimp only
    split
    · next n _ _ =>
      obtain ⟨w, x, e, hr, -⟩ := (s.setRecord r
        { s.record r with refs := n, state := if s.isQueued r then .queued else .waiting }).release_roomy h r
      rw [e]
      exact ⟨(((s.setRecord r { s.record r with refs := n, state := if s.isQueued r then .queued else .waiting }).returnRoom
        r).setWatermark w).store, x, rfl, rfl, e ▸ hr⟩
    · exact ⟨(s.setRecord r _).store, s.loc.ingress, rfl, rfl, h⟩

/-- A queue entry removed in a store with room while no reset is pending. -/
theorem State.removeEntry_roomy (h : s.roomy) (hp : s.resetPending = false) (q : Port) (e : Entry) :
    ∃ st x, s.removeEntry q e =
        ({ s.setQueues q ((s.queues q).set e.cls (((s.queues q).get e.cls).erase e.frame)) with store := st } :
          State).setIngress x ∧ st.mem = s.store.mem ∧ (s.removeEntry q e).roomy := by
  unfold State.removeEntry
  rw [State.unwatch_of_not_pending _ (by simpa [State.resetPending] using hp)]
  obtain ⟨st, x, e1, e2, e3⟩ := (s.setQueues q ((s.queues q).set e.cls (((s.queues q).get e.cls).erase e.frame))).dropRef_roomy
    (by simpa [State.roomy] using h) e.frame
  exact ⟨st, x, e1, by simpa using e2, e3⟩

/-! ### Canonical form -/

/-- The frame store's two tables are in canonical form. -/
def Store.wf (x : Store) : Prop := Memory.wf x.mem = true ∧ Sparse.wf FrameRecord.blank x.recs = true

theorem State.storeWf_setRecord (h : s.store.wf) (r : Nat) (f : FrameRecord) : (s.setRecord r f).store.wf :=
  ⟨h.1, Sparse.wf_set _ _ _ _ h.2⟩

theorem State.storeWf_writeFrameByte (h : s.store.wf) (r i : Nat) (b : Byte) : (s.writeFrameByte r i b).store.wf := by
  unfold State.writeFrameByte
  split
  · split
    · exact ⟨Memory.wf_write _ _ _ h.1, h.2⟩
    · exact h
  · exact h

theorem State.storeWf_fill (h : s.store.wf) (r : Nat) (l : List Byte) (i : Nat) : (s.fill r i l).store.wf := by
  induction l generalizing s i with
  | nil => exact h
  | cons b l ih => exact ih _ (s.storeWf_writeFrameByte h r i b) _

theorem State.storeWf_announce (h : s.store.wf) : s.announce.store.wf := by
  unfold State.announce
  split
  · split <;> exact h
  · exact h

theorem State.storeWf_append (h : s.store.wf) (k : EventKind) (p : Option Port) (d : Option Half) :
    (s.append k p d).store.wf := by
  unfold State.append; split <;> exact h

theorem State.storeWf_place (h : s.store.wf) (q : Port) (c : TrafficClass) (r : Nat) : (s.place q c r).store.wf := by
  unfold State.place; split
  · exact State.storeWf_setRecord _ (by simpa using h) _ _
  · simpa using h

theorem State.storeWf_placeByDest (h : s.store.wf) (d : Station) (r : Nat) : (s.placeByDest d r).store.wf := by
  unfold State.placeByDest; split
  · exact s.storeWf_place h _ 0 r
  · exact h

theorem State.storeWf_examineQuietly (h : s.store.wf) : s.examineQuietly.store.wf := by
  unfold State.examineQuietly; split <;> split
  · exact State.storeWf_append (s.setWatermark .low) h _ _ _
  all_goals exact h

theorem State.storeWf_releaseSkippedNotice (h : s.store.wf) (r : Nat) : (s.releaseSkippedNotice r).store.wf := by
  unfold State.releaseSkippedNotice; split
  · exact State.storeWf_announce _ (State.storeWf_examineQuietly (s.returnRoom r) h)
  · exact h

theorem State.storeWf_takeRoom (h : s.store.wf) {src : Source} {len r : Nat} (ht : s.takeRoom src len = some (r, t)) :
    t.store.wf := by
  unfold State.takeRoom at ht
  split at ht
  · cases ht
  · split at ht <;> cases ht
    refine ⟨h.1, ?_⟩
    dsimp only
    exact Sparse.wf_set _ _ _ _ h.2

theorem State.storeWf_sendNotice (h : s.store.wf) (e : EventRecord) : (s.sendNotice e).store.wf := by
  unfold State.sendNotice; split
  · exact h
  · next ht =>
    rw [State.setNotice_store]
    exact State.storeWf_releaseSkippedNotice _ (State.storeWf_placeByDest _ (State.storeWf_fill _
      (State.storeWf_examineQuietly _ (s.storeWf_takeRoom h ht)) _ _ _) _ _) _

theorem State.storeWf_raiseEvent (h : s.store.wf) (k : EventKind) (p : Option Port) (d : Option Half) :
    (s.raiseEvent k p d).store.wf := by
  unfold State.raiseEvent; dsimp only; split
  · exact State.storeWf_sendNotice _ (s.storeWf_append h k p d) _
  · exact s.storeWf_append h k p d

theorem State.storeWf_examine (h : s.store.wf) : s.examine.store.wf := by
  unfold State.examine; split <;> split
  · exact State.storeWf_raiseEvent (s.setWatermark .low) h _ _ _
  all_goals exact h

theorem State.storeWf_askRoom (h : s.store.wf) {src : Source} {len r : Nat} (ht : s.askRoom src len = .granted r t) :
    t.store.wf := by
  unfold State.askRoom at ht
  split at ht
  · next hx => cases ht; exact State.storeWf_examine _ (s.storeWf_takeRoom h hx)
  · cases ht

theorem State.storeWf_release (h : s.store.wf) (r : Nat) : (s.release r).store.wf :=
  State.storeWf_announce _ (State.storeWf_examine (s.returnRoom r) h)

theorem State.storeWf_dropRef (h : s.store.wf) (r : Nat) : (s.dropRef r).store.wf := by
  unfold State.dropRef; split
  · exact h
  · dsimp only; split
    · exact State.storeWf_release _ (s.storeWf_setRecord h r _) r
    · exact s.storeWf_setRecord h r _

theorem State.storeWf_unwatch (h : s.store.wf) (q : Port) (r : Nat) : (s.unwatch q r).store.wf := by
  unfold State.unwatch; split
  · split <;> exact h
  · exact h

theorem State.storeWf_removeEntry (h : s.store.wf) (q : Port) (e : Entry) : (s.removeEntry q e).store.wf :=
  State.storeWf_dropRef _ (State.storeWf_unwatch _ (by simpa using h) q _) _

/-- A run over a list of operations that keep the store's form keeps it. -/
theorem State.storeWf_foldl {α : Type} (f : State → α → State) (hf : ∀ u a, u.store.wf → (f u a).store.wf) (l : List α)
    (h : s.store.wf) : (l.foldl f s).store.wf := by
  induction l generalizing s with
  | nil => exact h
  | cons a l ih => exact ih _ (hf s a h)

theorem State.storeWf_removeEntries (h : s.store.wf) (q : Port) (f : Entry → Bool) : (s.removeEntries q f).store.wf :=
  State.storeWf_foldl s _ (fun u e hu => u.storeWf_removeEntry hu q e) _ h

theorem State.storeWf_releaseUnheld (h : s.store.wf) (r : Nat) : (s.releaseUnheld r).store.wf := by
  unfold State.releaseUnheld; split
  · exact s.storeWf_release h r
  · exact h

theorem State.storeWf_sendNumbering (h : s.store.wf) (p : TrunkPort) (x : Header) (l : List Byte) :
    (s.sendNumbering p x l).store.wf := by
  unfold State.sendNumbering; split
  · exact h
  · next ha =>
    exact State.storeWf_releaseUnheld _ (State.storeWf_place _ (State.storeWf_fill _ (s.storeWf_askRoom h ha) _ _ _) _ _ _) _

theorem State.storeWf_abandon (h : s.store.wf) (r : Option Nat) : (s.abandon r).store.wf := by
  cases r
  · exact h
  · exact s.storeWf_release h _

theorem State.storeWf_finishPlacement (h : s.store.wf) (r : Nat) : (s.finishPlacement r).store.wf := by
  unfold State.finishPlacement; split
  · exact s.storeWf_release h r
  · exact s.storeWf_setRecord h r _

/-! ### The event queue -/

theorem State.eventsSound_congr (he : t.events = s.events) (hp : t.params = s.params) : t.eventsSound = s.eventsSound := by
  simp [State.eventsSound, he, hp]

theorem consecutive_append (n : Half) (l : List EventRecord) (e : EventRecord) :
    consecutive n (l ++ [e]) = (consecutive n l && decide (e.seq = n + BitVec.ofNat 16 l.length)) := by
  induction l generalizing n with
  | nil => simp [consecutive]
  | cons a l ih =>
    have e1 : n + 1 + BitVec.ofNat 16 l.length = n + BitVec.ofNat 16 (l.length + 1) := by
      apply BitVec.eq_of_toNat_eq; simp; omega
    rw [List.length_cons, ← e1, List.cons_append, consecutive, consecutive, ih, Bool.and_assoc]

/-- An append keeps the event queue sound (R170). -/
theorem State.eventsSound_append (h : s.eventsSound = true) (k : EventKind) (p : Option Port) (d : Option Half) :
    (s.append k p d).eventsSound = true := by
  unfold State.append
  split
  · next hl =>
    simp only [State.eventsSound, Bool.and_eq_true, decide_eq_true_eq] at h ⊢
    obtain ⟨⟨⟨h1, h2⟩, h3⟩, h4⟩ := h
    refine ⟨⟨⟨by simp; omega, ?_⟩, by simp⟩, trivial⟩
    rw [consecutive_append]
    have e : s.events.nextSeq + 1 - BitVec.ofNat 16 (s.events.records ++ [s.newRecord k p d]).length =
        s.events.nextSeq - BitVec.ofNat 16 s.events.records.length := by
      rw [List.length_append, List.length_singleton]
      apply BitVec.eq_of_toNat_eq; simp; omega
    rw [e, h2]
    simp [State.newRecord]
  · simpa [State.eventsSound] using h

/-- An operation keeps the event queue: sound if it was, with every record it held, others behind them. -/
structure EventsKept (s t : State) : Prop where
  sound : s.eventsSound = true → t.eventsSound = true
  grows : ∃ l, t.events.records = s.events.records ++ l

theorem EventsKept.held {s t : State} (h : EventsKept s t) (hr : s.events.records ≠ []) : t.events.records ≠ [] := by
  obtain ⟨l, hl⟩ := h.grows
  simp [hl, hr]

theorem EventsKept.of_eq (he : t.events = s.events) (hp : t.params = s.params) : EventsKept s t :=
  ⟨fun h => (State.eventsSound_congr s he hp).trans h, [], by simp [he]⟩

theorem EventsKept.trans {s t u : State} (h : EventsKept s t) (g : EventsKept t u) : EventsKept s u :=
  ⟨fun x => g.sound (h.sound x), by
    obtain ⟨l, hl⟩ := h.grows
    obtain ⟨m, hm⟩ := g.grows
    exact ⟨l ++ m, by rw [hm, hl, List.append_assoc]⟩⟩

theorem State.eventsKept_append (k : EventKind) (p : Option Port) (d : Option Half) : EventsKept s (s.append k p d) := by
  refine ⟨fun h => s.eventsSound_append h k p d, ?_⟩
  unfold State.append; split
  · exact ⟨_, rfl⟩
  · exact ⟨[], by simp⟩

theorem State.writeFrameByte_events (r i : Nat) (b : Byte) : (s.writeFrameByte r i b).events = s.events := by
  unfold State.writeFrameByte
  split
  · split <;> rfl
  · rfl

theorem State.fill_events (r : Nat) (l : List Byte) (i : Nat) : (s.fill r i l).events = s.events := by
  induction l generalizing s i with
  | nil => rfl
  | cons b l ih => exact (ih _ _).trans (s.writeFrameByte_events r i b)

theorem State.storeSteered_events (r : Nat) (h : Header) : (s.storeSteered r h).events = s.events := by
  unfold State.storeSteered; simp only [State.writeFrameByte_events]

theorem State.announce_events : s.announce.events = s.events := by
  unfold State.announce
  split
  · split <;> rfl
  · rfl

theorem State.place_events (q : Port) (c : TrafficClass) (r : Nat) : (s.place q c r).events = s.events := by
  unfold State.place State.enqueue; split
  · exact s.setQueues_events q _
  · exact s.raiseSkip_events q

theorem State.placeByDest_events (d : Station) (r : Nat) : (s.placeByDest d r).events = s.events := by
  unfold State.placeByDest; split
  · exact s.place_events _ 0 r
  · rfl

theorem State.takeRoom_events {src : Source} {len r : Nat} (h : s.takeRoom src len = some (r, t)) :
    t.events = s.events := by
  unfold State.takeRoom at h
  split at h
  · cases h
  · split at h <;> cases h
    rfl

theorem State.eventsKept_examineQuietly : EventsKept s s.examineQuietly := by
  unfold State.examineQuietly; split <;> split
  · exact .trans (.of_eq s (s.setWatermark_events _) (s.setWatermark_params _)) (State.eventsKept_append _ _ _ _)
  all_goals exact .of_eq s rfl rfl

theorem State.eventsKept_releaseSkippedNotice (r : Nat) : EventsKept s (s.releaseSkippedNotice r) := by
  unfold State.releaseSkippedNotice; split
  · exact (((EventsKept.of_eq s (s.returnRoom_events r) (s.returnRoom_params r)).trans
      (State.eventsKept_examineQuietly _)).trans (.of_eq _ (State.announce_events _) (State.calm_announce _).params))
  · exact .of_eq s rfl rfl

/-- A notice leaves the event queue sound where a record is held (R172, R173). -/
theorem State.eventsSound_sendNotice (h : s.eventsSound = true) (hr : s.events.records ≠ []) (e : EventRecord) :
    (s.sendNotice e).eventsSound = true := by
  unfold State.sendNotice; split
  · exact h
  · next r s1 ht =>
    have k := ((((EventsKept.of_eq s (s.takeRoom_events ht) (s.calm_takeRoom ht).params).trans
      (State.eventsKept_examineQuietly s1)).trans (.of_eq _ (State.fill_events _ r (s.noticeBytes e) 0)
        (State.calm_fill _ _ _ _).params)).trans (.of_eq _ (State.placeByDest_events _ (s.params.monitorStation.getD 255) r)
        (State.calm_placeByDest _ _ _).params)).trans (State.eventsKept_releaseSkippedNotice _ r)
    have h1 := k.sound h
    have h2 := k.held hr
    revert h1 h2
    generalize State.releaseSkippedNotice _ r = u
    intro h1 h2
    simp only [State.eventsSound, State.setNotice, Bool.and_eq_true, decide_eq_true_eq] at h1 ⊢
    exact ⟨⟨⟨decide_eq_true h1.1.1.1, h1.1.1.2⟩, by simp [h2]⟩, decide_eq_true h1.2⟩

theorem State.grows_sendNotice (e : EventRecord) : ∃ l, (s.sendNotice e).events.records = s.events.records ++ l := by
  unfold State.sendNotice; split
  · exact ⟨[], by simp⟩
  · next r s1 ht =>
    have k := ((((EventsKept.of_eq s (s.takeRoom_events ht) (s.calm_takeRoom ht).params).trans
      (State.eventsKept_examineQuietly s1)).trans (.of_eq _ (State.fill_events _ r (s.noticeBytes e) 0)
        (State.calm_fill _ _ _ _).params)).trans (.of_eq _ (State.placeByDest_events _ (s.params.monitorStation.getD 255) r)
        (State.calm_placeByDest _ _ _).params)).trans (State.eventsKept_releaseSkippedNotice _ r)
    have h2 := k.grows
    revert h2
    generalize State.releaseSkippedNotice _ r = u
    exact fun h2 => h2

theorem State.eventsKept_raiseEvent (k : EventKind) (p : Option Port) (d : Option Half) :
    EventsKept s (s.raiseEvent k p d) := by
  have ha := s.eventsKept_append k p d
  unfold State.raiseEvent; dsimp only; split
  · next hc =>
    have hr : (s.append k p d).events.records ≠ [] := by
      unfold State.append
      rw [if_pos]
      · simp
      · simp at hc; simp [hc.1]
    refine ⟨fun h => State.eventsSound_sendNotice _ (ha.sound h) hr _, ?_⟩
    obtain ⟨l, hl⟩ := ha.grows
    obtain ⟨m, hm⟩ := State.grows_sendNotice (s.append k p d) (s.newRecord k p d)
    exact ⟨l ++ m, by rw [hm, hl, List.append_assoc]⟩
  · exact ha

/-- An event raised while fewer than 32 records are held is stored (R170). -/
theorem State.raiseEvent_stored (h : s.events.records.length < 32) (k : EventKind) (p : Option Port) (d : Option Half) :
    ∃ l, (s.raiseEvent k p d).events.records = s.events.records ++ s.newRecord k p d :: l := by
  have ha : (s.append k p d).events.records = s.events.records ++ [s.newRecord k p d] := by simp [State.append, h]
  unfold State.raiseEvent; dsimp only; split
  · obtain ⟨m, hm⟩ := State.grows_sendNotice (s.append k p d) (s.newRecord k p d)
    exact ⟨m, by rw [hm, ha]; simp⟩
  · exact ⟨[], ha⟩

theorem State.eventsKept_examine : EventsKept s s.examine := by
  unfold State.examine; split <;> split
  · exact .trans (.of_eq s (s.setWatermark_events _) (s.setWatermark_params _)) (State.eventsKept_raiseEvent _ _ _ _)
  all_goals exact .of_eq s rfl rfl

theorem State.eventsKept_askRoom {src : Source} {len r : Nat} (h : s.askRoom src len = .granted r t) : EventsKept s t := by
  unfold State.askRoom at h
  split at h
  · next hx =>
    cases h
    exact .trans (.of_eq s (s.takeRoom_events hx) (s.calm_takeRoom hx).params) (State.eventsKept_examine _)
  · cases h

theorem State.eventsKept_release (r : Nat) : EventsKept s (s.release r) :=
  ((EventsKept.of_eq s (s.returnRoom_events r) (s.returnRoom_params r)).trans (State.eventsKept_examine _)).trans
    (.of_eq _ (State.announce_events _) (State.calm_announce _).params)

theorem State.eventsKept_dropRef (r : Nat) : EventsKept s (s.dropRef r) := by
  unfold State.dropRef; split
  · exact .of_eq s rfl rfl
  · dsimp only; split
    · exact (EventsKept.of_eq s (s.setRecord_events r _) (s.setRecord_params r _)).trans (State.eventsKept_release _ r)
    · exact .of_eq s rfl rfl

theorem State.unwatch_events (q : Port) (r : Nat) : (s.unwatch q r).events = s.events := by
  unfold State.unwatch; split
  · split <;> rfl
  · rfl

theorem State.eventsKept_removeEntry (q : Port) (e : Entry) : EventsKept s (s.removeEntry q e) :=
  (EventsKept.of_eq s ((State.unwatch_events _ q _).trans (s.setQueues_events q _))
    ((s.calm_setQueues q _).trans (State.calm_unwatch _ q _)).params).trans (State.eventsKept_dropRef _ _)

/-- A run over a list of operations that keep the event queue keeps it. -/
theorem EventsKept.foldl {α : Type} (f : State → α → State) (hf : ∀ u a, EventsKept u (f u a)) (l : List α) (s : State) :
    EventsKept s (l.foldl f s) := by
  induction l generalizing s with
  | nil => exact .of_eq s rfl rfl
  | cons a l ih => exact (hf s a).trans (ih (f s a))

theorem State.eventsKept_removeEntries (q : Port) (f : Entry → Bool) : EventsKept s (s.removeEntries q f) :=
  EventsKept.foldl _ (fun u e => u.eventsKept_removeEntry q e) _ s

theorem State.eventsKept_releaseUnheld (r : Nat) : EventsKept s (s.releaseUnheld r) := by
  unfold State.releaseUnheld; split
  · exact s.eventsKept_release r
  · exact .of_eq s rfl rfl

theorem State.eventsKept_sendNumbering (p : TrunkPort) (x : Header) (l : List Byte) :
    EventsKept s (s.sendNumbering p x l) := by
  unfold State.sendNumbering; split
  · exact .of_eq s rfl rfl
  · next ha =>
    exact (((s.eventsKept_askRoom ha).trans (.of_eq _ (State.fill_events _ _ _ _) (State.calm_fill _ _ _ _).params)).trans
      (.of_eq _ (State.place_events _ _ _ _) (State.calm_place _ _ _ _).params)).trans (State.eventsKept_releaseUnheld _ _)

theorem State.eventsKept_abandon (r : Option Nat) : EventsKept s (s.abandon r) := by
  cases r
  · exact .of_eq s rfl rfl
  · exact s.eventsKept_release _

theorem State.eventsKept_finishPlacement (r : Nat) : EventsKept s (s.finishPlacement r) := by
  unfold State.finishPlacement; split
  · exact s.eventsKept_release r
  · exact .of_eq s rfl rfl

end Sys2Proof.Machine
end

