-- ==== Sys2Proof/Laws/Commands.lean ====
section
/-! SUPPORT. What taking a command of the request in execution answers, said once; the lengths of the byte images, which the
response-size check adds up. -/

namespace Sys2Proof.Machine

/-! ### Lengths of byte images -/

@[simp] theorem beBytes_length (n x : Nat) : (beBytes n x).length = n := by
  induction n with
  | zero => rfl
  | succ n ih => simp [beBytes, ih]

@[simp] theorem halfBytes_length (x : Half) : (halfBytes x).length = 2 := rfl

/-- Two bytes high byte first are the two bytes of a 16-bit value. -/
theorem beBytes_two (x : Half) : beBytes 2 x.toNat = halfBytes x := by
  simp only [beBytes, halfBytes]
  congr 1
  · apply BitVec.eq_of_toNat_eq; simp [BitVec.extractLsb'_toNat, Nat.shiftRight_eq_div_pow]
  · congr 1; apply BitVec.eq_of_toNat_eq; simp [BitVec.extractLsb'_toNat]

@[simp] theorem encodeHeader_length (h : Header) : (encodeHeader h).length = 10 := rfl

@[simp] theorem encodeEntry_length (e : SteerEntry) : (encodeEntry e).length = 20 := rfl

@[simp] theorem meterBytes_length (m : Meter) : (meterBytes m).length = 11 := by simp [meterBytes]

@[simp] theorem counterBytes_length (c : EntryCounter) : (counterBytes c).length = 10 := by simp [counterBytes]

@[simp] theorem eventBytes_length (e : EventRecord) : (eventBytes e).length = 10 := by simp [eventBytes]

/-- Records of one length `k` for each of a list. -/
theorem length_flatMap_const {α : Type} (f : α → List Byte) (k : Nat) (h : ∀ a, (f a).length = k) (l : List α) :
    (l.flatMap f).length = k * l.length := by
  induction l with
  | nil => rfl
  | cons a l ih => rw [List.flatMap_cons, List.length_append, h, ih, List.length_cons]; ring

/-! ### Taking a command (R150) -/

variable {s : State} {e : Execution} {c : Cmd} {rest : List Cmd}

theorem State.standsAt.current (h : s.standsAt e c rest) : s.current = some (e, c, rest) := by
  simp [State.current, h.1, h.2]

/-- A command that a row takes, whose arguments have their fixed length, and whose own checks fail. -/
theorem runCommand_fail {takes : Cmd → Bool} {body : Call → State → Verdict} {code : Byte} {n : Nat} {r : CmdResult}
    (h : s.standsAt e c rest) (ha : e.admits c code n) (ht : takes c = true)
    (hb : body { requester := e.requester, args := c.args, isLast := rest.isEmpty } s = .fail r) :
    runCommand takes body s = s.answerCmd e c rest r [] none := by
  simp [runCommand, h.current, ht, verdictOf, ha.1, ha.2.1, hb]

/-- A command that a row takes, whose arguments have their fixed length, whose own checks pass, and whose data fit. -/
theorem runCommand_pass {takes : Cmd → Bool} {body : Call → State → Verdict} {code : Byte} {n : Nat} {data : List Byte}
    {reset : Option ResetScope} {t : State} (h : s.standsAt e c rest) (ha : e.admits c code n) (ht : takes c = true)
    (hb : body { requester := e.requester, args := c.args, isLast := rest.isEmpty } s = .pass data reset t)
    (hd : data.length ≤ n) : runCommand takes body s = t.answerCmd e c rest .ok data reset := by
  have : e.used + data.length ≤ 1024 := Nat.le_trans (Nat.add_le_add_left hd _) ha.2.2
  simp [runCommand, h.current, ht, verdictOf, ha.1, ha.2.1, hb, this]

/-- A row that does not take the command the executor stands at changes nothing. -/
theorem runCommand_other {takes : Cmd → Bool} {body : Call → State → Verdict} (h : s.standsAt e c rest)
    (ht : takes c = false) : runCommand takes body s = s := by simp [runCommand, h.current, ht]

/-- Where no command waits nothing is taken. -/
theorem runCommand_idle {takes : Cmd → Bool} {body : Call → State → Verdict} (h : s.current = none) :
    runCommand takes body s = s := by simp [runCommand, h]

/-- Everything taking a command can do: nothing; a failing answer; or the effect of its own checks and an OK answer. -/
theorem runCommand_cases (takes : Cmd → Bool) (body : Call → State → Verdict) (s : State) :
    runCommand takes body s = s ∨
    (∃ e c rest r, s.standsAt e c rest ∧ takes c = true ∧
      runCommand takes body s = s.answerCmd e c rest r [] none) ∨
    ∃ e c rest data reset t, s.standsAt e c rest ∧ takes c = true ∧
      body { requester := e.requester, args := c.args, isLast := rest.isEmpty } s = .pass data reset t ∧
      runCommand takes body s = t.answerCmd e c rest .ok data reset := by
  unfold runCommand
  cases hc : s.current with
  | none => exact .inl rfl
  | some x =>
    obtain ⟨e, c, rest⟩ := x
    have hs : s.standsAt e c rest := by
      unfold State.current at hc
      split at hc
      · next he =>
        split at hc
        · next ht => cases hc; exact ⟨he, ht⟩
        · cases hc
      · cases hc
    dsimp only
    split
    · next ht =>
      cases hv : verdictOf e c rest body s with
      | fail r => exact .inr (.inl ⟨e, c, rest, r, hs, ht, rfl⟩)
      | pass data reset t =>
        refine .inr (.inr ⟨e, c, rest, data, reset, t, hs, ht, ?_, rfl⟩)
        unfold verdictOf at hv
        split at hv
        · cases hv
        · cases hb : body { requester := e.requester, args := c.args, isLast := rest.isEmpty } s with
          | fail r => rw [hb] at hv; cases hv
          | pass d z u =>
            rw [hb] at hv
            dsimp only at hv
            split at hv <;> cases hv
            rfl
    · exact .inl rfl

/-- The parts of the state an answer leaves alone: all but the executor and the session timer. -/
theorem State.answerCmd_eq (s : State) (e : Execution) (c : Cmd) (rest : List Cmd) (r : CmdResult) (data : List Byte)
    (reset : Option ResetScope) :
    ∃ x, s.answerCmd e c rest r data reset =
      { s with mgmt := { s.mgmt with executor := .executing (e.answered c rest r data reset) }, session := x } ∧
      x.state = s.session.state ∧ x.owner = s.session.owner ∧ x.cursor = s.session.cursor ∧
      x.swapRequested = s.session.swapRequested ∧ x.swapTaken = s.session.swapTaken ∧
      (s.session.state = .closed ∨ s.session.swapRequested = true → x = s.session) := by
  unfold State.answerCmd State.touchTimer
  dsimp only
  split
  · next h => exact ⟨_, rfl, rfl, rfl, rfl, rfl, rfl, fun hx => by rcases hx with hx | hx <;> simp [hx] at h⟩
  · exact ⟨s.session, rfl, rfl, rfl, rfl, rfl, rfl, fun _ => rfl⟩

/-! ### What a command's arguments name -/

theorem hasCode_of_admits {code : Byte} {n : Nat} (h : e.admits c code n) : hasCode code c = true := by
  simp [hasCode, h.1]

theorem State.lockRefuses_eq_false (s : State) (q : Station) :
    s.lockRefuses q = false ↔ s.session.state = .closed ∨ s.session.owner = some q := by
  simp only [State.lockRefuses, Bool.and_eq_false_iff, decide_eq_false_iff_not, not_not]

theorem State.sessionCheck_owner (s : State) (q : Station) (w : Bool) (h : s.session.state = .opened)
    (ho : s.session.owner = some q) : s.sessionCheck q w = none := by simp [State.sessionCheck, h, ho]

end Sys2Proof.Machine
end

