-- ==== Sys2Proof/Laws/Effects.lean ====
section
/-! SUPPORT. The effects that `Safety.lean` names, tied once to the operations that have them: a record given back, the
entries that leave a port's queues, the watched response, a placement, a cut transfer, the bytes of a record over several
pages, and the match of an entry as R10 and R11 word it. -/

namespace Sys2Proof.Machine

variable {s t : State}

/-! ### A record given back (R35, R38) -/

/-- A release in a store with room gives the record back, and the store keeps room. -/
theorem State.release_gaveBack (h : s.roomy) (r : Nat) : s.gaveBack (some r) (s.release r) ∧ (s.release r).roomy := by
  obtain ⟨w, x, e, hr, hx⟩ := s.release_roomy h r
  refine ⟨⟨?_, fun hn => ?_⟩, hr⟩
  · rw [e]; rfl
  · rw [e]; exact hx hn

/-- A record abandoned, where there is one, is given back. -/
theorem State.abandon_gaveBack (record : Option Nat) (h : record = none ∨ s.roomy) :
    s.gaveBack record (s.abandon record) ∧ (s.roomy → (s.abandon record).roomy) := by
  cases record with
  | none => exact ⟨rfl, id⟩
  | some r =>
    have hr : s.roomy := h.resolve_left (by simp)
    exact ⟨(s.release_gaveBack hr r).1, fun _ => (s.release_gaveBack hr r).2⟩

/-! ### A transfer cut (R184) -/

theorem State.cutEgress_of_not_transfer (h : ∀ e k, s.loc.egress ≠ .transfer e k) : s.cutEgress = s := by
  unfold State.cutEgress
  split
  · next e k he => exact absurd he (h e k)
  · rfl

theorem State.cutEgress_of_transfer {e : Entry} {k : Nat} (h : s.loc.egress = .transfer e k) :
    s.cutEgress = s.chosen.setEgress (.aborting (s.markedByte e k)) := by
  unfold State.cutEgress
  rw [h]

/-- The marked byte is the byte of the frame that was next, or 0. -/
theorem State.markedByte_cases (s : State) (e : Entry) (k : Nat) :
    s.markedByte e k = byteAt (sentImage (s.frameBytes e.frame) 0) k ∨ s.markedByte e k = 0 := by
  unfold State.markedByte State.localImage
  split <;> simp

/-- A cut changes local egress and the numbering of free choices alone. -/
theorem State.cutEgress_eq (s : State) :
    s.cutEgress = { s with choices := s.cutEgress.choices, loc := { s.loc with egress := s.cutEgress.loc.egress } } := by
  unfold State.cutEgress
  split <;> rfl

@[simp] theorem State.cutEgress_store (s : State) : s.cutEgress.store = s.store := by rw [s.cutEgress_eq]
@[simp] theorem State.cutEgress_mgmt (s : State) : s.cutEgress.mgmt = s.mgmt := by rw [s.cutEgress_eq]
@[simp] theorem State.cutEgress_events (s : State) : s.cutEgress.events = s.events := by rw [s.cutEgress_eq]
@[simp] theorem State.cutEgress_params (s : State) : s.cutEgress.params = s.params := by rw [s.cutEgress_eq]
@[simp] theorem State.cutEgress_trunkA (s : State) : s.cutEgress.trunkA = s.trunkA := by rw [s.cutEgress_eq]
@[simp] theorem State.cutEgress_trunkB (s : State) : s.cutEgress.trunkB = s.trunkB := by rw [s.cutEgress_eq]
@[simp] theorem State.cutEgress_steer (s : State) : s.cutEgress.steer = s.steer := by rw [s.cutEgress_eq]
@[simp] theorem State.cutEgress_meters (s : State) : s.cutEgress.meters = s.meters := by rw [s.cutEgress_eq]
@[simp] theorem State.cutEgress_pending (s : State) : s.cutEgress.pending = s.pending := by rw [s.cutEgress_eq]
@[simp] theorem State.cutEgress_ingress (s : State) : s.cutEgress.loc.ingress = s.loc.ingress := by rw [s.cutEgress_eq]
@[simp] theorem State.cutEgress_queues (s : State) (q : Port) : s.cutEgress.queues q = s.queues q := by
  rw [s.cutEgress_eq]; cases q <;> rfl

/-! ### Entries that leave a port's queues (R65) -/

theorem class_cases (c : TrafficClass) : c = 0 ∨ c = 1 ∨ c = 2 ∨ c = 3 := by revert c; decide

theorem QueueSet.get_set (x : QueueSet) (c d : TrafficClass) (l : List Nat) :
    (x.set c l).get d = if d = c then l else x.get d := by
  by_cases h : d = c
  · subst h; simp
  · rw [if_neg h]
    unfold QueueSet.set QueueSet.get
    rcases class_cases c with rfl | rfl | rfl | rfl <;> rcases class_cases d with rfl | rfl | rfl | rfl <;>
      first | exact absurd rfl h | rfl

@[simp] theorem QueueSet.without_get (x : QueueSet) (e : Entry) (c : TrafficClass) :
    (x.without e).get c = if c = e.cls then (x.get e.cls).erase e.frame else x.get c := x.get_set e.cls c _

@[simp] theorem QueueSet.push_get (x : QueueSet) (c d : TrafficClass) (r : Nat) :
    (x.push c r).get d = if d = c then x.get c ++ [r] else x.get d := x.get_set c d _

@[simp] theorem QueueSet.keep_get (x : QueueSet) (f : Entry → Bool) (c : TrafficClass) :
    (x.keep f).get c = (x.get c).filter (fun r => f { cls := c, frame := r }) := by
  rcases class_cases c with rfl | rfl | rfl | rfl <;> rfl

/-- A port's queues are their four classes. -/
theorem QueueSet.ext_get {x y : QueueSet} (h : ∀ c, x.get c = y.get c) : x = y := by
  have h0 : x.c0 = y.c0 := h 0
  have h1 : x.c1 = y.c1 := h 1
  have h2 : x.c2 = y.c2 := h 2
  have h3 : x.c3 = y.c3 := h 3
  cases x; cases y
  simp_all

/-- The elements a predicate selects, erased one after the other. -/
theorem foldl_erase_filter (g : Nat → Bool) (l : List Nat) :
    (l.filter g).foldl List.erase l = l.filter (fun r => !g r) := by
  have keep : ∀ (m l : List Nat) (a : Nat), (∀ x ∈ m, x ≠ a) → m.foldl List.erase (a :: l) = a :: m.foldl List.erase l := by
    intro m
    induction m with
    | nil => intros; rfl
    | cons b m ih =>
      intro l a h
      have hb : (a == b) = false := by simpa using (h b (by simp)).symm
      rw [List.foldl_cons, List.foldl_cons, List.erase_cons_tail (by simp [hb]), ih _ _ (fun x hx => h x (by simp [hx]))]
  induction l with
  | nil => rfl
  | cons a l ih =>
    by_cases h : g a = true
    · simp [h, ih]
    · rw [List.filter_cons_of_neg h, keep _ _ _ (fun x hx hxa => h (by rw [← hxa]; exact (List.mem_filter.mp hx).2)), ih]
      simp [h]

/-- The entries a predicate selects, removed in order, leave the others in order. -/
theorem QueueSet.foldl_without (x : QueueSet) (f : Entry → Bool) :
    (x.entries.filter f).foldl QueueSet.without x = x.keep (fun e => !f e) := by
  have one : ∀ (c : TrafficClass) (l : List Nat) (y : QueueSet),
      ((l.map (fun r => ({ cls := c, frame := r } : Entry))).filter f).foldl QueueSet.without y =
        y.set c ((l.filter (fun r => f { cls := c, frame := r })).foldl List.erase (y.get c)) := by
    intro c l
    induction l with
    | nil => intro y; exact QueueSet.ext_get fun d => by rw [QueueSet.get_set]; split <;> simp_all
    | cons a l ih =>
      intro y
      by_cases h : f { cls := c, frame := a } = true
      · simp only [List.map_cons, List.filter_cons, h, if_true, List.foldl_cons, ih]
        exact QueueSet.ext_get fun d => by simp only [QueueSet.get_set, QueueSet.without_get]; split <;> simp_all
      · simp only [List.map_cons, List.filter_cons, h]
        exact ih y
  have split : x.entries =
      (x.get 0).map (fun r => { cls := 0, frame := r }) ++ (x.get 1).map (fun r => { cls := 1, frame := r }) ++
      (x.get 2).map (fun r => { cls := 2, frame := r }) ++ (x.get 3).map (fun r => { cls := 3, frame := r }) := rfl
  rw [split]
  simp only [List.filter_append, List.foldl_append, one, QueueSet.get_set]
  refine QueueSet.ext_get fun d => ?_
  rcases class_cases d with rfl | rfl | rfl | rfl <;> simp [QueueSet.get_set, foldl_erase_filter]

/-- An entry removed in a store with room: its port's queues lose it and no other port's queue changes. -/
theorem State.removeEntry_queues (h : s.roomy) (q : Port) (e : Entry) :
    (∀ y, (s.removeEntry q e).queues y = if y = q then (s.queues q).without e else s.queues y) ∧
      (s.removeEntry q e).roomy := by
  unfold State.removeEntry
  have hu : ∀ u : State, (u.unwatch q e.frame).roomy ↔ u.roomy := by
    intro u; unfold State.unwatch; split <;> [(split <;> rfl); rfl]
  have hq : ∀ (u : State) y, (u.unwatch q e.frame).queues y = u.queues y := by
    intro u y; unfold State.unwatch; split <;> [(split <;> cases y <;> rfl); rfl]
  obtain ⟨st, x, e1, -, e3⟩ := ((s.setQueues q ((s.queues q).set e.cls (((s.queues q).get e.cls).erase e.frame))).unwatch q
    e.frame).dropRef_roomy ((hu _).2 (by simpa [State.roomy] using h)) e.frame
  refine ⟨fun y => ?_, e3⟩
  rw [e1]
  have : ∀ u : State, (({ u with store := st } : State).setIngress x).queues y = u.queues y := fun u => by cases y <;> rfl
  rw [this, hq, State.queues_setQueues]
  by_cases hy : y = q
  · subst hy; simp [QueueSet.without]
  · simp [hy]

/-- The entries of a port that a predicate selects, removed in a store with room. -/
theorem State.removeEntries_queues (h : s.roomy) (q : Port) (f : Entry → Bool) :
    (∀ y, (s.removeEntries q f).queues y = if y = q then (s.queues q).keep (fun e => !f e) else s.queues y) ∧
      (s.removeEntries q f).roomy := by
  unfold State.removeEntries
  have fold : ∀ (l : List Entry) (u : State), u.roomy →
      (∀ y, (l.foldl (fun t e => t.removeEntry q e) u).queues y =
          if y = q then l.foldl QueueSet.without (u.queues q) else u.queues y) ∧
        (l.foldl (fun t e => t.removeEntry q e) u).roomy := by
    intro l
    induction l with
    | nil => exact fun u hu => ⟨fun y => by by_cases hy : y = q <;> simp [hy], hu⟩
    | cons e l ih =>
      intro u hu
      obtain ⟨h1, h2⟩ := u.removeEntry_queues hu q e
      obtain ⟨g1, g2⟩ := ih _ h2
      refine ⟨fun y => ?_, g2⟩
      rw [List.foldl_cons, g1 y, h1 q, if_pos rfl, List.foldl_cons]
      by_cases hy : y = q <;> simp [hy, h1 y]
  obtain ⟨h1, h2⟩ := fold ((s.queues q).entries.filter f) s h
  exact ⟨fun y => by rw [h1 y, QueueSet.foldl_without], h2⟩

/-! ### The watched response, the residence check, a statistic raised several times (R69, R114, R163, R164) -/

/-- An entry that is not watched leaves the pending reset as it is. -/
theorem State.unwatch_other (q : Port) (r : Nat) (h : s.watches q r = false) : s.unwatch q r = s := by
  unfold State.unwatch
  unfold State.watches at h
  split <;> simp_all

/-- The watched entry's leaving makes the reset due. -/
theorem State.unwatch_watched (q : Port) (r : Nat) (scope : ResetScope)
    (h : s.mgmt.executor = .resetPending { scope := scope, watched := some (q, r) }) :
    s.unwatch q r = { s with mgmt := s.unwatched scope } := by
  simp [State.unwatch, State.unwatched, h]

/-- With nothing watched, the pending reset is performed as at the limit. -/
theorem State.settle_unwatched (scope : ResetScope)
    (h : s.mgmt.executor = .resetPending { scope := scope, watched := none }) :
    Host.Outcome.next s.settle = exec .resetLimitExpiry s := by
  simp [State.settle, exec, execResetLimitExpiry, h]

/-- The model's residence check fails exactly the stale frames. -/
theorem State.fresh_eq_false (r : Nat) : s.fresh r = false ↔ s.stale r := by
  simp [State.fresh, residencePasses, State.stale]

@[simp] theorem raisedBy_zero (x : Half) : raisedBy x 0 = x := by
  simp only [raisedBy, Nat.add_zero, Nat.min_eq_right (show x.toNat ≤ 65535 by omega)]
  exact BitVec.ofNat_toNat .. |>.trans (BitVec.setWidth_eq x)

/-- Raised once more. -/
theorem raisedBy_satInc (x : Half) (n : Nat) : raisedBy (satInc x) n = raisedBy x (n + 1) := by
  unfold raisedBy satInc
  split
  · rw [BitVec.toNat_add_of_lt (by simpa using ‹_›)]
    simp [Nat.add_assoc, Nat.add_comm 1 n]
  · have : x.toNat = 65535 := by omega
    simp [this]

/-! ### A placement (R21, R64) -/

/-- A delivery to a port joins the tail of the class's queue there, or is skipped; no other queue changes. -/
theorem State.place_queues (s : State) (q y : Port) (c : TrafficClass) (r : Nat) :
    (s.place q c r).queues y = if y = q ∧ s.canPlace q c = true then (s.queues q).push c r else s.queues y := by
  unfold State.place
  by_cases h : s.canPlace q c = true
  · rw [if_pos h]
    have : ∀ (u : State) f, (u.setRecord r f).queues y = u.queues y := fun u f => by cases y <;> rfl
    simp only [State.enqueue, this, State.queues_setQueues, h, and_true]
    by_cases hy : y = q <;> simp [hy, QueueSet.push]
  · rw [if_neg h, if_neg (by simp [h])]
    cases q <;> cases y <;> rfl

/-- Whether a port takes a delivery does not depend on a delivery to another port. -/
theorem State.canPlace_place (s : State) {q y : Port} (h : y ≠ q) (c d : TrafficClass) (r : Nat) :
    (s.place q c r).canPlace y d = s.canPlace y d := by
  have hp : (s.place q c r).params = s.params := (s.calm_place q c r).params
  have hl := (s.calm_place q c r).link
  have hf : (s.place q c r).flushing y = s.flushing y := by
    cases y
    · simpa [State.flushing, hp, State.trunk] using
        congrArg (fun l => decide (s.params.linkDownPolicy = .flush) && !l.up) (hl .a)
    · simpa [State.flushing, hp, State.trunk] using
        congrArg (fun l => decide (s.params.linkDownPolicy = .flush) && !l.up) (hl .b)
    · rfl
  have hd : (s.place q c r).depth y = s.depth y := by cases y <;> simp [State.depth, hp]
  simp only [State.canPlace, s.place_queues q y, h, false_and, if_false, hf, hd]

/-! ### Bytes over several pages (R26, R35) -/

/-- In a record whose pages are distinct and reach its stored size, every byte has an address of its own. -/
theorem FrameRecord.addr_inj (f : FrameRecord) (hn : f.pages.Nodup) {i j a : Nat} (hi : f.addr i = some a)
    (hj : f.addr j = some a) : i = j := by
  simp only [FrameRecord.addr, Option.map_eq_some_iff] at hi hj
  obtain ⟨x, hx, ex⟩ := hi
  obtain ⟨y, hy, ey⟩ := hj
  have h64 : Config.pageSize = 64 := rfl
  have mi := Nat.mod_lt i (show 0 < 64 by decide)
  have mj := Nat.mod_lt j (show 0 < 64 by decide)
  rw [h64] at ex ey hx hy
  have hxy : x = y := by omega
  subst hxy
  obtain ⟨li, gi⟩ := List.getElem?_eq_some_iff.mp hx
  obtain ⟨lj, gj⟩ := List.getElem?_eq_some_iff.mp hy
  have hd : i / 64 = j / 64 := (hn.getElem_inj_iff).mp (gi.trans gj.symm)
  omega

/-- Bytes written into such a record are read back, and its other bytes are kept. -/
theorem State.frameByte_fill_pages (r : Nat) (hn : (s.record r).pages.Nodup)
    (hp : (s.record r).size ≤ (s.record r).pages.length * Config.pageSize) (l : List Byte) (i : Nat)
    (hs : i + l.length ≤ (s.record r).size) (j : Nat) (hj : j < (s.record r).size) :
    (s.fill r i l).frameByte r j = if i ≤ j ∧ j < i + l.length then l.getD (j - i) 0 else s.frameByte r j := by
  have addr : ∀ k, k < (s.record r).size → ∃ a, (s.record r).addr k = some a := by
    intro k hk
    have : k / Config.pageSize < (s.record r).pages.length :=
      Nat.div_lt_of_lt_mul (by rw [Nat.mul_comm]; exact Nat.lt_of_lt_of_le hk hp)
    exact ⟨_, by rw [FrameRecord.addr, List.getElem?_eq_getElem this]; rfl⟩
  induction l generalizing s i with
  | nil => simp [State.fill]
  | cons b l ih =>
    simp only [List.length_cons] at hs ⊢
    have hr := s.writeFrameByte_record r i r b
    rw [State.fill, ih (s := s.writeFrameByte r i b) (by rwa [hr]) (by rwa [hr]) (i + 1) (by rw [hr]; omega) (by rwa [hr])
      (by rwa [hr])]
    have hw : (s.writeFrameByte r i b).frameByte r j = if j = i then b else s.frameByte r j := by
      obtain ⟨a, ha⟩ := addr i (by omega)
      obtain ⟨c, hc⟩ := addr j hj
      have hm : (s.writeFrameByte r i b).store.mem = Memory.write s.store.mem a b := by
        unfold State.writeFrameByte
        rw [if_pos (by omega), ha]
      simp only [State.frameByte, hr, hc, hm, Memory.read_write]
      by_cases h : j = i
      · subst h
        rw [ha] at hc
        simp [Option.some.inj hc]
      · have : c ≠ a := fun hca => h ((s.record r).addr_inj hn (hca ▸ hc) ha)
        simp [h, this]
    rw [hw]
    by_cases h1 : j = i
    · simp [h1]
    · by_cases h2 : i + 1 ≤ j ∧ j < i + 1 + l.length
      · obtain ⟨k, rfl⟩ : ∃ k, j = i + 1 + k := ⟨j - (i + 1), by omega⟩
        rw [if_pos h2, if_pos (by omega), show i + 1 + k - i = k + 1 by omega, show i + 1 + k - (i + 1) = k by omega]
        rfl
      · rw [if_neg h2, if_neg h1, if_neg (by omega)]

/-- A record filled whole reads as the bytes it was filled with. -/
theorem State.frameBytes_fill (r : Nat) (hn : (s.record r).pages.Nodup)
    (hp : (s.record r).size ≤ (s.record r).pages.length * Config.pageSize) (l : List Byte)
    (hl : l.length = (s.record r).size) : (s.fill r 0 l).frameBytes r = l := by
  refine List.ext_getElem (by simp [State.frameBytes, State.fill_record, hl]) fun i h1 h2 => ?_
  simp only [State.frameBytes, List.getElem_map, List.getElem_range]
  rw [s.frameByte_fill_pages r hn hp l 0 (by omega) i (by omega), if_pos (by omega)]
  simp [h2]

/-! ### The watermark and the events (R41, R170, R172) -/

/-- The examination of the watermark is what R41 words. -/
theorem State.examine_moved : s.watermarkMoved s.examine := by
  unfold State.watermarkMoved State.examine
  refine ⟨fun h hp => ?_, fun h hp => ?_, fun h hp => ?_, fun h hp => ?_⟩ <;> rw [h]
  · exact if_pos hp
  · exact if_neg (Nat.not_lt.mpr hp)
  · exact if_pos hp
  · exact if_neg (Nat.not_le.mpr hp)

/-- An event raised while another waits to be read is appended and does no more (R172). -/
theorem State.raiseEvent_behind (k : EventKind) (p : Option Port) (d : Option Half) (h : s.events.records ≠ []) :
    s.raiseEvent k p d = s.append k p d := by
  simp [State.raiseEvent, h]

/-- An append that no notice is due for does no more (R172). -/
theorem State.raiseEvent_unannounced (k : EventKind) (p : Option Port) (d : Option Half)
    (h : (s.append k p d).noticeDue = false) : s.raiseEvent k p d = s.append k p d := by
  simp [State.raiseEvent, h]

/-! ### The match of an entry (R10, R11) -/

theorem maskedEq_iff {w : Nat} (x value mask : BitVec w) :
    maskedEq x value mask = true ↔ ∀ i, mask.getLsbD i = true → x.getLsbD i = value.getLsbD i := by
  simp only [maskedEq, beq_iff_eq]
  constructor
  · intro h i hi
    have := congrArg (fun v => v.getLsbD i) h
    simpa [BitVec.getLsbD_and, hi] using this
  · intro h
    refine BitVec.eq_of_getLsbD_eq fun i _ => ?_
    by_cases hi : mask.getLsbD i = true
    · simp [BitVec.getLsbD_and, hi, h i hi]
    · simp [BitVec.getLsbD_and, hi]

/-- The model's match is the conjunction that R10 and R11 word. -/
theorem SteerEntry.matches_iff (e : SteerEntry) (from_ : Port) (up : TrunkPort) (k : FrameKind) (h : Header) :
    e.matches from_ up k h = true ↔ e.holdsFor from_ up k h := by
  unfold SteerEntry.matches SteerEntry.holdsFor
  simp only [Bool.and_eq_true, maskedEq_iff, and_assoc]
  refine and_congr_right fun _ => and_congr ?_ (and_congr ?_ (and_congr_right fun _ => and_congr_right fun _ =>
    and_congr_right fun _ => and_congr_right fun _ => ?_))
  · cases e.arrival <;> cases from_ <;> cases up <;> simp [arrivalHolds, portOf, otherPort]
  · cases k <;> simp [Kinds.has]
  · cases e.mark <;> cases h.mark <;> simp [markHolds]

end Sys2Proof.Machine
end

