-- ==== Sys2Proof/Laws/Trunk.lean ====
section
/-! SUPPORT. What the shared operations of a trunk port can do, said once: how a symbol is heard, and what the transmitter's
operations leave alone. -/

namespace Sys2Proof.Machine

variable (s : State)

/-! ### What a pending reset looks at -/

theorem State.resetPending_setTrunk (p : TrunkPort) (x : Trunk) : (s.setTrunk p x).resetPending = s.resetPending := by
  simp [State.resetPending]

theorem State.resetDue_setTrunk (p : TrunkPort) (x : Trunk) : (s.setTrunk p x).resetDue = s.resetDue := by
  simp [State.resetDue]

/-- No event ends a reset where none is pending before it and it leaves the management engine alone. -/
theorem State.settle_of_mgmt {t : State} (h : t.mgmt = s.mgmt) (hd : s.resetDue = false) : t.settle = t :=
  t.settle_of_not_due ((State.resetDue_of_mgmt s h).trans hd)

/-! ### Hearing a symbol (R45, R95) -/

theorem State.enabled_of_params {t : State} (h : t.params = s.params) (p : TrunkPort) : t.enabled p = s.enabled p := by
  cases p <;> simp [State.enabled, h]

/-- A valid symbol on a port that hears it plainly: counted, then taken. -/
theorem State.hear_plainly {s : State} {p : TrunkPort} (h : s.hearsPlainly p) (f : State → State) :
    s.hear p f = f (s.setTrunk p { s.trunk p with link := (s.trunk p).link.heard }) := by
  unfold State.hear
  rw [if_pos h.1]
  dsimp only
  rw [if_neg]
  · rfl
  · rw [State.onLink_eq, State.trunk_setTrunk_same]
    rcases h.2 with h | h
    · simp [Link.runComplete, Link.heard, h]
    · unfold Link.runComplete Link.heard
      dsimp only
      split
      · next hu => simp [hu]
      · simp; intro _; exact h

/-- A symbol on a disabled port is ignored (R45). -/
theorem State.hear_disabled {s : State} {p : TrunkPort} (h : s.enabled p = false) (f : State → State) : s.hear p f = s := by
  simp [State.hear, h]

/-- Everything hearing a symbol can do: nothing; the symbol counted and taken; or the symbol counted and taken, and the link
brought up before or after. -/
theorem State.hear_cases (p : TrunkPort) (f : State → State) :
    s.hear p f = s ∨ s.hear p f = f (s.onLink p Link.heard) ∨
      s.hear p f = f ((s.onLink p Link.heard).chosen.linkUp p) ∨
      s.hear p f = (f (s.onLink p Link.heard).chosen).linkUp p := by
  unfold State.hear
  split
  · dsimp only
    split
    · split
      · exact .inr (.inr (.inl rfl))
      · exact .inr (.inr (.inr rfl))
    · exact .inr (.inl rfl)
  · exact .inl rfl

/-! ### The transmitter (R66 to R89) -/

/-- A transmitter's work on a state: its port's transmitter becomes `x`, and beyond that only what store, event and queue
operations change. -/
def TxWork (p : TrunkPort) (x : Transmitter) (s t : State) : Prop :=
  Calm (s.onTx p (fun _ => x)) t ∧ (s.store.wf → t.store.wf) ∧ EventsKept s t

variable {s}

theorem Calm.onTx {t : State} (h : Calm s t) (p : TrunkPort) (x : Transmitter) :
    Calm (s.onTx p (fun _ => x)) (t.onTx p (fun _ => x)) where
  nodeTime := by simpa using h.nodeTime
  steer := by simpa using h.steer
  meters := by simpa using h.meters
  counters := by simpa using h.counters
  numbering := by simpa using h.numbering
  enums := by simpa using h.enums
  session := by simpa using h.session
  params := by simpa using h.params
  choices := by simpa using h.choices
  pending := by simpa using h.pending
  rx q := by simpa [State.onTx_eq, State.trunk_setTrunk, apply_ite] using
    (by by_cases hq : q = p <;> simp [hq, h.rx])
  tx q := by simp only [State.onTx_eq, State.trunk_setTrunk]; by_cases hq : q = p <;> simp [hq, h.tx]
  link q := by simp only [State.onTx_eq, State.trunk_setTrunk]; by_cases hq : q = p <;> simp [hq, h.link]
  lineOut q := by simp only [State.onTx_eq, State.trunk_setTrunk]; by_cases hq : q = p <;> simp [hq, h.lineOut]
  egress := by simpa using h.egress
  lastOut := by simpa using h.lastOut
  requests := by simpa using h.requests
  cache := by simpa using h.cache

theorem TxWork.onTx (s : State) (p : TrunkPort) (f : Transmitter → Transmitter) : TxWork p (f (s.tx p)) s (s.onTx p f) :=
  ⟨.refl _, fun h => by simpa using h, .of_eq s (by simp) (by simp)⟩

theorem TxWork.then_calm {p : TrunkPort} {x : Transmitter} {t u : State} (h : TxWork p x s t) (hc : Calm t u)
    (hw : t.store.wf → u.store.wf) (he : EventsKept t u) : TxWork p x s u :=
  ⟨h.1.trans hc, fun k => hw (h.2.1 k), h.2.2.trans he⟩

theorem TxWork.tx_eq {p : TrunkPort} {x : Transmitter} {t : State} (h : TxWork p x s t) : t.tx p = x := by
  have := h.1.tx p
  rwa [State.onTx_eq, State.trunk_setTrunk_same] at this

theorem TxWork.trans {p : TrunkPort} {x y : Transmitter} {t u : State} (h : TxWork p x s t) (g : TxWork p y t u) :
    TxWork p y s u := by
  refine ⟨?_, fun k => g.2.1 (h.2.1 k), h.2.2.trans g.2.2⟩
  have := (h.1.onTx p y).trans g.1
  simpa [State.onTx_eq] using this

/-- Work that leaves the transmitter as it is. -/
theorem TxWork.of_calm {p : TrunkPort} {t : State} (hc : Calm s t) (hw : s.store.wf → t.store.wf) (he : EventsKept s t) :
    TxWork p (s.tx p) s t := ⟨by
      have h : s.onTx p (fun _ => s.tx p) = s := by cases p <;> rfl
      rwa [h], hw, he⟩

theorem TxWork.refl (s : State) (p : TrunkPort) : TxWork p (s.tx p) s s :=
  .of_calm (.refl s) id (.of_eq s rfl rfl)

theorem TxWork.raiseTrunk (s : State) (p : TrunkPort) (k : TrunkStat) : TxWork p (s.tx p) s (s.raiseTrunk p k) :=
  .of_calm (s.calm_raiseTrunk p k) (fun h => by simpa using h) (.of_eq s (by simp) (by simp))

/-- What the leaving of the frame in flight makes of a transmitter. -/
def Transmitter.left (t : Transmitter) : Transmitter := if t.inFlight.isSome then t.advanced.cleared else t.cleared

theorem TxWork.leaveFlight (s : State) (p : TrunkPort) : TxWork p (s.tx p).left s (s.leaveFlight p) := by
  unfold State.leaveFlight
  split
  · next h => simpa [Transmitter.left, h] using TxWork.onTx s p Transmitter.cleared
  · next e h =>
    have := TxWork.onTx s p (fun t => t.advanced.cleared)
    rw [show (s.tx p).left = (s.tx p).advanced.cleared by simp [Transmitter.left, h]]
    exact this.then_calm (State.calm_removeEntry _ _ e) (fun h => State.storeWf_removeEntry _ h _ e)
      (State.eventsKept_removeEntry _ _ e)

/-- What the start of a copy makes of a transmitter. -/
def Transmitter.copying (t : Transmitter) : Transmitter := { t with state := .sending, sent := true, acked := false, timer := none }

theorem TxWork.startCopy (s : State) (p : TrunkPort) : TxWork p (s.tx p).copying s (s.startCopy p) := by
  have h := TxWork.raiseTrunk s p (if (s.tx p).sent then .retransmissions else .framesSent)
  have g := TxWork.onTx (s.raiseTrunk p (if (s.tx p).sent then .retransmissions else .framesSent)) p Transmitter.copying
  rw [h.tx_eq] at g
  exact h.trans g

theorem TxWork.raiseEvent (s : State) (p : TrunkPort) (k : EventKind) (q : Option Port) (d : Option Half) :
    TxWork p (s.tx p) s (s.raiseEvent k q d) :=
  .of_calm (s.calm_raiseEvent k q d) (fun h => s.storeWf_raiseEvent h k q d) (s.eventsKept_raiseEvent k q d)

/-- Work that keeps a transmitter sound. -/
def TxKept (p : TrunkPort) (s t : State) : Prop := ∃ x, TxWork p x s t ∧ ((s.tx p).sound = true → x.sound = true)

theorem TxKept.trans {p : TrunkPort} {t u : State} (h : TxKept p s t) (g : TxKept p t u) : TxKept p s u := by
  obtain ⟨x, h1, h2⟩ := h
  obtain ⟨y, g1, g2⟩ := g
  exact ⟨y, h1.trans g1, fun k => g2 (h1.tx_eq ▸ h2 k)⟩

theorem TxKept.of_calm {p : TrunkPort} {t : State} (hc : Calm s t) (hw : s.store.wf → t.store.wf) (he : EventsKept s t) :
    TxKept p s t := ⟨_, .of_calm hc hw he, id⟩

theorem TxKept.refl (s : State) (p : TrunkPort) : TxKept p s s := ⟨_, .refl s p, id⟩

theorem TxKept.raiseEvent (s : State) (p : TrunkPort) (k : EventKind) (q : Option Port) (d : Option Half) :
    TxKept p s (s.raiseEvent k q d) := ⟨_, .raiseEvent s p k q d, id⟩

theorem TxKept.raiseTrunk (s : State) (p : TrunkPort) (k : TrunkStat) : TxKept p s (s.raiseTrunk p k) :=
  ⟨_, .raiseTrunk s p k, id⟩

theorem TxKept.onTx (s : State) (p : TrunkPort) (f : Transmitter → Transmitter)
    (h : (s.tx p).sound = true → (f (s.tx p)).sound = true) : TxKept p s (s.onTx p f) := ⟨_, .onTx s p f, h⟩

theorem Transmitter.sound_cleared (t : Transmitter) : t.cleared.sound = true := by
  simp [Transmitter.sound, Transmitter.cleared]

theorem Transmitter.sound_left (t : Transmitter) : t.left.sound = true := by
  unfold Transmitter.left; split <;> exact Transmitter.sound_cleared _

theorem Transmitter.sound_copying (t : Transmitter) (h : t.inFlight.isSome = true) : t.copying.sound = true := by
  simp [Transmitter.sound, Transmitter.copying, h]

theorem Transmitter.sound_suspended (t : Transmitter) (h : t.sound = true) : t.suspended.sound = true := by
  simp only [Transmitter.sound, Bool.and_eq_true] at h ⊢
  exact ⟨⟨⟨rfl, rfl⟩, rfl⟩, h.2⟩

theorem TxKept.leaveFlight (s : State) (p : TrunkPort) : TxKept p s (s.leaveFlight p) :=
  ⟨_, .leaveFlight s p, fun _ => Transmitter.sound_left _⟩

theorem TxKept.startCopy (s : State) (p : TrunkPort) (h : (s.tx p).inFlight.isSome = true) :
    TxKept p s (s.startCopy p) := ⟨_, .startCopy s p, fun _ => Transmitter.sound_copying _ h⟩

theorem TxKept.retransmit (s : State) (p : TrunkPort) : TxKept p s (s.retransmit p) := by
  unfold State.retransmit
  split
  · exact .refl s p
  · next e h =>
    split
    · exact .startCopy s p (by simp [h])
    · exact (TxKept.raiseTrunk s p _).trans (.leaveFlight _ p)

theorem TxKept.resume (s : State) (p : TrunkPort) : TxKept p s (s.resume p) := by
  unfold State.resume; split
  · exact .retransmit s p
  · exact .refl s p

theorem TxKept.suspend (s : State) (p : TrunkPort) : TxKept p s (s.suspend p) := by
  unfold State.suspend
  split
  · exact .refl s p
  · exact .refl s p
  · split
    · exact .leaveFlight s p
    · exact .onTx s p _ (Transmitter.sound_suspended _)
  · exact .onTx s p _ (Transmitter.sound_suspended _)
  · exact .onTx s p _ (Transmitter.sound_suspended _)

theorem TxKept.removeEntries (s : State) (p : TrunkPort) (q : Port) (f : Entry → Bool) : TxKept p s (s.removeEntries q f) :=
  .of_calm (s.calm_removeEntries q f) (fun h => s.storeWf_removeEntries h q f) (s.eventsKept_removeEntries q f)

theorem TxKept.flushDown (s : State) (p : TrunkPort) : TxKept p s (s.flushDown p) := by
  unfold State.flushDown
  split
  · dsimp only; split
    · exact .removeEntries s p _ _
    · exact (TxKept.removeEntries s p _ _).trans (.onTx _ p _ fun _ => Transmitter.sound_cleared _)
  · exact .refl s p

/-- An exhausted frame leaves its transmitter sound, whatever its policy (R76 to R79). -/
theorem TxWork.exhaust (s : State) (p : TrunkPort) (h : (s.tx p).inFlight.isSome = true) (ha : (s.tx p).acked = false) :
    ∃ x, TxWork p x s (s.exhaust p) ∧ x.sound = true := by
  have k := TxWork.raiseTrunk s p .retryExhaustions
  unfold State.exhaust
  dsimp only
  split
  · have g := TxWork.onTx (s.raiseTrunk p .retryExhaustions) p
      (fun t => { t with state := .retryWait, attempts := 0, timer := some s.params.retryStep })
    exact ⟨_, k.trans g, by rw [k.tx_eq]; simp [Transmitter.sound, h, ha]⟩
  · have g := TxWork.leaveFlight (s.raiseTrunk p .retryExhaustions) p
    have e := TxWork.raiseEvent (State.leaveFlight (s.raiseTrunk p .retryExhaustions) p) p .retryExhausted (some (portOf p))
      (some (BitVec.ofNat 16 (policyCode .drop)))
    exact ⟨_, (k.trans g).trans e, by rw [g.tx_eq]; exact Transmitter.sound_left _⟩
  · have g := TxWork.onTx (s.raiseTrunk p .retryExhaustions) p (fun t => { t with state := .held, timer := none })
    have e := fun u => TxWork.raiseEvent u p .retryExhausted (some (portOf p)) (some (BitVec.ofNat 16 (policyCode .hold)))
    have e2 := fun u => TxWork.raiseEvent u p .portHeld (some (portOf p)) none
    refine ⟨_, ((k.trans g).trans (e _)).trans (e2 _), ?_⟩
    rw [(e _).tx_eq, g.tx_eq, k.tx_eq]
    simp [Transmitter.sound, h, ha]

/-- A failed attempt of a transmitter that awaits an ACK (R72). -/
theorem TxKept.failAttempt (s : State) (p : TrunkPort) (hw : (s.tx p).state = .awaitingAck) :
    TxKept p s (s.failAttempt p) := by
  by_cases hs : (s.tx p).sound = true
  · have hf : (s.tx p).inFlight.isSome = true ∧ (s.tx p).acked = false := by
      simp only [Transmitter.sound, hw, Bool.and_eq_true] at hs
      exact ⟨by simpa using hs.1.1.1, by simpa using hs.1.2⟩
    unfold State.failAttempt
    dsimp only
    split
    · exact .onTx s p _ fun _ => by simp [Transmitter.sound, hf.1, hf.2]
    · have k := TxWork.onTx s p (fun t => { t with attempts := (s.tx p).attempts + 1, timer := none })
      obtain ⟨y, g1, g2⟩ := TxWork.exhaust _ p (by rw [k.tx_eq]; exact hf.1) (by rw [k.tx_eq]; exact hf.2)
      exact ⟨y, k.trans g1, fun _ => g2⟩
  · have : ∃ x, TxWork p x s (s.failAttempt p) := by
      unfold State.failAttempt
      dsimp only
      split
      · exact ⟨_, .onTx s p _⟩
      · have k := TxWork.onTx s p (fun t => { t with attempts := (s.tx p).attempts + 1, timer := none })
        have r := fun u : State => TxWork.raiseTrunk u p .retryExhaustions
        unfold State.exhaust
        dsimp only
        split
        · exact ⟨_, (k.trans (r _)).trans (.onTx _ p _)⟩
        · exact ⟨_, ((k.trans (r _)).trans (.leaveFlight _ p)).trans (.raiseEvent _ p _ _ _)⟩
        · exact ⟨_, (((k.trans (r _)).trans (.onTx _ p _)).trans (.raiseEvent _ p _ _ _)).trans (.raiseEvent _ p _ _ _)⟩
    obtain ⟨x, hx⟩ := this
    exact ⟨x, hx, fun h => absurd h hs⟩

theorem TxKept.stray (s : State) (p : TrunkPort) : TxKept p s (s.stray p) := .raiseTrunk s p _

theorem TxKept.takeAck (s : State) (p : TrunkPort) (q : LinkSeq) : TxKept p s (s.takeAck p q) := by
  unfold State.takeAck
  split
  · split
    · split
      · exact .leaveFlight s p
      · exact .stray s p
    · next h =>
      split
      · exact .stray s p
      · exact .onTx s p _ fun k => by simp [Transmitter.sound, h] at k ⊢; exact ⟨k.1, k.2⟩
    · exact .leaveFlight s p
    · exact .leaveFlight s p
    · exact .stray s p
  · exact .stray s p

theorem TxKept.takeNak (s : State) (p : TrunkPort) (q : LinkSeq) (why : NakReason) : TxKept p s (s.takeNak p q why) := by
  unfold State.takeNak
  split
  · next h =>
    split
    · exact .failAttempt s p h.2
    · refine .onTx s p _ fun k => ?_
      simp only [Transmitter.sound, h.2, Bool.and_eq_true] at k ⊢
      exact ⟨⟨⟨by simpa using k.1.1.1, rfl⟩, by simpa using k.1.2⟩, k.2⟩
  · exact .stray s p

/-- A selection that takes up a frame or discards heads (R68, R69). -/
theorem TxKept.select (s : State) (p : TrunkPort) (n : Nat) : TxKept p s (s.select p n) := by
  induction n generalizing s with
  | zero => exact .refl s p
  | succ n ih =>
    unfold State.select
    split
    · exact .refl s p
    · next e _ =>
      split
      · have k := TxWork.onTx s p (fun t => { t with inFlight := some e, sent := false, acked := false })
        exact ⟨_, k.trans (.startCopy _ p), fun _ => Transmitter.sound_copying _ (by rw [k.tx_eq]; rfl)⟩
      · have k : TxKept p s ((s.raiseTrunk p .residenceDiscards).removeEntry (portOf p) e) :=
          (TxKept.raiseTrunk s p _).trans (.of_calm (State.calm_removeEntry _ _ e)
            (fun h => State.storeWf_removeEntry _ h _ e) (State.eventsKept_removeEntry _ _ e))
        dsimp only
        split
        · exact k
        · exact k.trans (ih _)

end Sys2Proof.Machine
end

