-- ==== Sys2Proof/WellFormed.lean ====
section
/-! DEFINITION. Well-formedness of a command. The operands' types are exactly the ranges the spec gives them
(a port A or B, a seq 0 to 7, a reason CHECK or BUSY, a byte 0 to 255: R91, R176), so no ill-formed command can be
written down and there is no check left to make. -/

namespace Sys2Proof

/-- A command is well formed when its operands lie in the ranges of R91 and R176; the types see to it. -/
def WellFormed : Instr → Bool
  | _ => true

end Sys2Proof
end

