-- ==== Sys2Proof/Tests/Slice0.lean ====
section
/-! SUPPORT. The model's own tests: the well-formedness smoke test, values written out from the spec, and for every statement
with hypotheses a concrete state and operands that meet them all, clause by clause. -/

namespace Sys2Proof.Tests

open Sys2Proof.Machine

-- One test after the other: checked side by side, their threads reserve more memory than the check allows.
set_option Elab.async false

/-! ### Small states -/

/-- The reset state with a small store: 64 free pages, four free records. -/
def small : State :=
  { State.reset with store := { State.reset.store with freePages := List.range 64, freeRecs := [0, 1, 2, 3] } }

/-- Port A's receiver in a reception state. -/
def rxAt (x : Reception) : State := small.setReception .a x

/-- Port A's transmitter in a state. -/
def txAt (t : Transmitter) : State := small.onTx .a (fun _ => t)

/-- An entry of class 2, record 5, in port A's queues and its transmitter's flight; its record held once. -/
def flight : Entry := { cls := 2, frame := 5 }

/-- A transmitter with `flight`. -/
def flying (x : TxState) (timer : Option Nat) : Transmitter :=
  { state := x, txSeq := 7, attempts := 2, inFlight := some flight, sent := true, acked := false, timer := timer }

/-- Record 5: a one-page frame from the local port of 12 bytes, held once, in port A's class 2 queue. -/
def withFlight (t : Transmitter) : State :=
  ((txAt t).setQueues .a { c0 := [], c1 := [], c2 := [5], c3 := [] }).setRecord 5
    { state := .queued, source := .l, size := 12, pages := [100], arrival := 0, refs := 1 }

/-- The request in execution of station 7 standing at one command. -/
def standing (code : Byte) (args : List Byte) : Execution :=
  { requester := 7, id := 0x1234, malformed := false, count := 1, todo := [{ code := code, args := args }], done := []
    reset := none }

/-- A state with a node reset pending. -/
def resetting (scope : ResetScope) (w : Watched) (s : State) : State :=
  s.setExecutor (.resetPending { scope := scope, watched := w })

/-- Port A's link UP. -/
def upA (s : State) : State := s.onLink .a (fun l => { l with up := true, run := 64 })

/-- The node with that request in execution. -/
def cmdAt (code : Byte) (args : List Byte) : State := small.setExecutor (.executing (standing code args))

/-- The same with an edit session of station 7. -/
def ownedAt (code : Byte) (args : List Byte) (x : SessionState) : State :=
  { cmdAt code args with
    session := { state := x, owner := some 7, timer := some 30, cursor := 0, swapRequested := false, swapTaken := false } }

/-- The same with an edit session of another station. -/
def lockedAt (code : Byte) (args : List Byte) : State :=
  { cmdAt code args with
    session :=
      { state := .opened, owner := some 9, timer := some 30, cursor := 0, swapRequested := false, swapTaken := false } }

/-- A stored frame, record 5, on the backlog of port A: its first page written with a header. -/
def stored (h : Header) (payload : List Byte) (src : Source) : State :=
  let s : State := small.setRecord 5
    { state := .waiting, source := src, size := 10 + payload.length, pages := [100], arrival := 0, refs := 0 }
  s.fill 5 0 (encodeHeader h ++ payload)

/-- A DATA header of class 1. -/
def dataHeader (dest source : Station) : Header :=
  { kind := 1, mark := false, seq := 0, cls := 1, channel := 3, dest := dest, source := source, tag := 0x0102, length := 0
    zeros := 0 }

/-- The frame on backlog A. -/
def backlogged (h : Header) : State := (stored h [] .a).setBacklog .a [5]

/-! ### Well-formedness, and values from the spec -/

/-- Every command is well formed: the operand types are exactly the ranges, so no ill-formed term can be written, and there is
no check a smoke test could see refuse one. -/
theorem test_wellFormed (i : Instr) : WellFormed i = true := rfl

/-- No row of the table gives bits, so no word spells a command. -/
theorem test_no_word (nbits w : Nat) : decodeTableWord nbits w = none ∧ State.reset.withFetchWord nbits w = State.reset :=
  ⟨rfl, rfl⟩

/-- The header check and the frame check of the nine ASCII bytes "123456789" are FBh and FC891918h: R100's own values. -/
theorem test_checks :
    headerCheck [0x31, 0x32, 0x33, 0x34, 0x35, 0x36, 0x37, 0x38, 0x39] = 0xFB ∧
    frameCheck [0x31, 0x32, 0x33, 0x34, 0x35, 0x36, 0x37, 0x38, 0x39] = 0xFC891918#32 := by decide +kernel

/-- A frame of Length 54 needs one page, one of 55 two, one of 1024 seventeen (R26). -/
theorem test_pagesNeeded : pagesNeeded 54 = 1 ∧ pagesNeeded 55 = 2 ∧ pagesNeeded 1024 = 17 := by decide

/-- Statistics stop at FFFFh (R114). -/
theorem test_saturates : satInc (0xFFFF : Half) = 0xFFFF ∧ satInc (0xFFFE : Half) = 0xFFFF := by decide

/-- Residence across the wrap of node time: 3 ms after FFFFFFFEh is 1h (R69). -/
theorem test_residence_wraps : residencePasses 3 1 0xFFFFFFFE = true ∧ residencePasses 2 1 0xFFFFFFFE = false := by decide

/-- ACK_WAIT takes 50 to 12750 in steps of 50; an ATTENTION_MASK has bits 1 to 13 only (R156). -/
theorem test_paramRanges :
    paramValid 5 50 = true ∧ paramValid 5 12750 = true ∧ paramValid 5 75 = false ∧ paramValid 21 1 = false ∧
      paramValid 21 0x3FFE = true ∧ paramValid 21 0x4000 = false := by decide

/-- A control byte with a reserved bit, or with action code 3, is not valid (R105). -/
theorem test_control : controlOf 0x81 = some (true, .demote) ∧ controlOf 0x84 = none ∧ controlOf 0x03 = none := by decide

/-- A meter of burst 100 and level 100 takes a frame of 100 bytes and then none of 10; a tick of rate 64 brings back 64, and
the next tick stops at the burst (R107, R108). -/
theorem test_meter :
    let m : Meter := { enabled := true, rate := 64, burst := 100, level := 100, action := .drop, exceed := 0 }
    (m.charge 100).1.level = 0 ∧ (m.charge 100).2 = none ∧ ((m.charge 100).1.charge 10).2 = some .drop ∧
      (m.charge 100).1.tick.level = 64 ∧ (m.charge 100).1.tick.tick.level = 100 := by decide

/-- On station 4 with A upstream, the internal route sends Destination 3 out of A, 5 out of B, 4 and 255 to the local port; an
unnumbered node reaches its local port at 255 only (R23). -/
theorem test_internalRoute :
    let s := { small with numbering := .numbered 4 .a }
    s.routeByDest 3 = some .a ∧ s.routeByDest 5 = some .b ∧ s.routeByDest 4 = some .l ∧ s.routeByDest 255 = some .l ∧
      small.routeByDest 255 = some .l ∧ small.routeByDest 3 = none := by decide

/-- A released record goes to the tail of the free record list, its pages to the tail of the free page list (R38, R39). -/
theorem test_release_tails :
    let s := small.setRecord 9 { state := .waiting, source := .b, size := 70, pages := [800, 7], arrival := 0, refs := 0 }
    (s.release 9).store.freeRecs = [0, 1, 2, 3, 9] ∧ (s.release 9).store.freePages.drop 64 = [800, 7] := by decide +kernel

/-- An ENUM with station 0, with a reserved flag bit, or of three bytes is not valid (R119). -/
theorem test_enumOffer :
    enumOffer [0, 0, 0, 1] = none ∧ enumOffer [1, 2, 0, 1] = none ∧ enumOffer [1, 0, 0] = none ∧
      enumOffer [1, 1, 2, 3] = some { next := 1, force := true, run := 0x0203 } := by decide

/-- A request with no command, with seventeen, with an unknown code, or with a command past its end is malformed (R149). -/
theorem test_malformed :
    parseRequest [0, 1, 0] = none ∧ parseRequest [0, 1, 17] = none ∧ parseRequest [0, 1, 1, 0x13, 0] = none ∧
      parseRequest [0, 1, 1, 0x0E, 1] = none ∧
      parseRequest [0, 1, 1, 0x0E, 1, 5] = some [{ code := 0x0E, args := [5] }] := by decide

/-- Before the first tick INFO of an unnumbered node answers 0A31h, 2416h, 1 and zeros (R153). -/
theorem test_info :
    (match exec .info (cmdAt 0x01 []) with
      | .next t => t.mgmt.executor
      | _ => .idle) =
    .executing { standing 0x01 [] with
      todo := []
      done := [{ code := 0x01, result := .ok, data := [0x0A, 0x31, 0x24, 0x16, 1, 0, 0, 0, 0, 0, 0, 0, 0, 0, 0] }] } := by
  decide +kernel

/-! ### Witnesses: the queue and the invariants -/

theorem witness_idleQueue : State.reset.pending = [] := rfl

/-- A sound state whose step answers a next state, which meets the hypotheses of every invariant statement. -/
theorem witness_soundStep :
    ({ State.reset with pending := [.meterTick] } : State).sound = true ∧
    step { State.reset with pending := [.meterTick] } = .next { State.reset with nodeTime := 1 } := by
  constructor
  · decide +kernel
  · rfl

/-- A state with a request in execution and no full reset recorded, and a command that is none of the two excepted. -/
theorem witness_otherCommand :
    (cmdAt 0x01 []).fullResetPending = false ∧
    (∀ e, (cmdAt 0x01 []).mgmt.executor = .executing e → e.reset ≠ some .full) ∧
    Outcome.isNext (exec .info (cmdAt 0x01 [])) = true := by
  refine ⟨rfl, fun e h => ?_, rfl⟩
  cases h
  decide

/-- A state in which no reset can happen and no monitor station is set, with a command of no port and one of port A. -/
theorem witness_CommandsLeaveOtherPartsAlone :
    (cmdAt 0x01 []).resetFree ∧ Outcome.isNext (exec .info (cmdAt 0x01 [])) = true ∧ Instr.info ≠ .powerOnReset ∧
    Instr.info ≠ .meterTick ∧ Instr.info ∉ [Instr.lookup, .localAdmissionRetry, .enumHandling, .responseHandover] ∧
    (cmdAt 0x01 []).params.monitorStation = none ∧ trunkPort? (.idleReceived .a) ≠ some .b := by
  refine ⟨⟨rfl, fun e h => ?_⟩, rfl, by decide, by decide, by decide, rfl, by decide⟩
  cases h
  rfl

/-! ### Witnesses: resets -/

theorem witness_PowerOnAndFullResetEffect :
    (resetting .full (some (.a, 5)) small).mgmt.executor = .resetPending { scope := .full, watched := some (.a, 5) } ∧
    ((withFlight .initial).setEgress (.transfer flight 11)).loc.egress = .transfer flight 11 ∧
    (∀ e k, (small.setEgress (.aborting 9)).loc.egress ≠ .transfer e k) := by
  refine ⟨rfl, rfl, fun e k h => ?_⟩
  cases h

/-- Clause by clause: a frame in flight that is not watched, one that is and awaits its ACK, one HELD on an unusable and on a
usable port, none; a transfer that is not watched and one that is; one record to spare in the event queue. -/
theorem witness_TrafficResetAtLimit :
    (let s := resetting .traffic none (withFlight (flying .awaitingAck (some 500)))
     Sparse.wf Meter.blank s.meters = true ∧ s.mgmt.executor = .resetPending { scope := .traffic, watched := none } ∧
     (s.tx .a).inFlight = some flight ∧ (s.tx .b).inFlight = none ∧ s.roomy ∧ s.events.records ≠ [] ∧
     s.events.records.length < 32 ∧ (s.tx .a).state ≠ .held) ∧
    (let w : Watched := some (portOf .a, flight.frame)
     let s := resetting .traffic w (withFlight (flying .awaitingAck (some 500)))
     s.mgmt.executor = .resetPending { scope := .traffic, watched := w } ∧ (s.tx .a).inFlight = some flight ∧
     (s.tx .a).state ≠ .held) ∧
    (let w : Watched := some (portOf .a, flight.frame)
     let s := resetting .traffic w (withFlight (flying .held none))
     (s.tx .a).state = .held ∧ s.usable .a = false ∧ (upA s).usable .a = true ∧ (upA s).fresh flight.frame = true ∧
     (upA s).roomy ∧ (upA s).events.records ≠ []) ∧
    (let s := (withFlight .initial).setEgress (.transfer flight 11)
     (resetting .traffic none s).loc.egress = .transfer flight 11 ∧ (none : Watched) ≠ some (.l, flight.frame) ∧ s.roomy ∧
     (resetting .traffic (some (.l, 5)) s).loc.egress = .transfer flight 11) ∧
    (∀ e k, small.loc.egress ≠ .transfer e k) := by
  refine ⟨?_, ?_, ?_, ?_, fun e k h => by cases h⟩ <;> try unfold State.roomy
  all_goals decide +kernel

/-- A cut transfer marks one of the two bytes R184 names, here of a frame of zeros both 0; the byte the device then takes
carries last and abort. -/
theorem test_cutEgress :
    let s := (withFlight .initial).setEgress (.transfer flight 11)
    s.cutEgress.loc.egress = .aborting 0 ∧
      s.cutEgress.outboundLines = some { data := 0, last := true, abort := true } ∧
      s.cutEgress.takeOutByte.loc.egress = .idle := by
  have h : ((withFlight .initial).setEgress (.transfer flight 11)).markedByte flight 11 = 0 := by
    rcases State.markedByte_cases ((withFlight .initial).setEgress (.transfer flight 11)) flight 11 with h | h
    · rw [h]; decide +kernel
    · exact h
  have e := State.cutEgress_of_transfer (s := (withFlight .initial).setEgress (.transfer flight 11)) rfl
  rw [h] at e
  simp only [e]
  exact ⟨rfl, rfl, rfl⟩

/-! ### Witnesses: reception -/

/-- A frame in progress with `n` header bytes. -/
def headerOf (n : Nat) : RxFrame := { RxFrame.start with header := List.replicate n 0x10 }

/-- A record of 64 + 10 bytes over two pages: its last payload byte stands in the second. -/
def twoPages (f : RxFrame) (x : RxFrame → Reception) : State :=
  (rxAt (x f)).setRecord 5
    { state := .filling, source := .a, size := 74, pages := [63, 9], arrival := 0, refs := 0 }

/-- Port A's receiver with a frame in progress that has record 5, all its payload bytes but the last taken. -/
def inPayload : RxFrame := { headerOf 10 with frame := some 5, length := 64, after := 63 }

/-- The same with all payload bytes and `n` check bytes taken, against a running check of 0. -/
def inCheck (n : Nat) : RxFrame :=
  { headerOf 10 with frame := some 5, length := 64, after := 64 + n, checkBytes := List.replicate n 0 }

/-- The same frame refused, with no record. -/
def without (f : RxFrame) : RxFrame := { f with frame := none, refused := true }

/-- A port that hears plainly: DOWN one symbol short of the run's last but one, or UP. -/
theorem witness_hears :
    small.hearsPlainly .a ∧
    (small.setTrunk .a { small.trunkA with link := { up := false, run := 62, silence := true } }).hearsPlainly .a ∧
    (small.setTrunk .b { small.trunkB with link := { up := true, run := 64, silence := true } }).hearsPlainly .b := by
  unfold State.hearsPlainly; decide

theorem witness_SofStartsFrame :
    (small.hearsPlainly .a ∧ small.resetDue = false ∧ (small.trunk .a).rx.reception = .waitSof) ∧
    ((rxAt (.header (headerOf 9))).hearsPlainly .a ∧ (rxAt (.header (headerOf 9))).resetDue = false) ∧
    ((rxAt (.check (without (inCheck 0)))).hearsPlainly .a ∧ (without (inCheck 0)).frame = none) ∧
    (∀ x ∈ [Reception.payload inPayload, .check (inCheck 4)],
      (twoPages inPayload (fun _ => x)).hearsPlainly .a ∧ (twoPages inPayload (fun _ => x)).resetDue = false ∧
      ((twoPages inPayload (fun _ => x)).trunk .a).rx.reception = x ∧ (twoPages inPayload (fun _ => x)).roomy) := by
  unfold State.hearsPlainly State.roomy; decide

theorem witness_HelloIdleCodeErrorAndDisabledPort :
    ({ small with params := { small.params with portEnableA := false } } : State).enabled .a = false ∧
    ({ small with params := { small.params with portEnableA := false } } : State).resetDue = false := by decide

theorem witness_DataByteTaken :
    (rxAt (.header (headerOf 8))).hearsPlainly .a ∧ (headerOf 8).header.length < 9 ∧
    ((twoPages inPayload .payload).hearsPlainly .a ∧ (twoPages inPayload .payload).resetDue = false ∧
      ((twoPages inPayload .payload).trunk .a).rx.reception = .payload inPayload ∧ inPayload.frame = some 5 ∧
      10 + inPayload.after < ((twoPages inPayload .payload).record 5).size ∧
      ((twoPages inPayload .payload).record 5).addr (10 + inPayload.after) = some (9 * 64 + 9)) ∧
    ((rxAt (.payload (without inPayload))).hearsPlainly .a ∧ (without inPayload).frame = none) ∧
    (inCheck 3).checkBytes.length < 4 ∧ (inCheck 4).checkBytes.length = 4 ∧ (without (inCheck 4)).frame = none ∧
    ((twoPages (inCheck 4) .check).hearsPlainly .a ∧ (twoPages (inCheck 4) .check).roomy) := by
  unfold State.hearsPlainly State.roomy; decide

/-- Nine bytes of a good header of Length 54, whose tenth byte would be its check. -/
def nine : List Byte := headerFields { dataHeader 4 9 with length := 54 }

theorem witness_TenthHeaderByteJudged :
    (rxAt (.header { RxFrame.start with header := nine })).hearsPlainly .a ∧
    nine.length = 9 ∧ Machine.headerBad (nine ++ [headerCheck nine + 1]) = true ∧
    Machine.headerBad (nine ++ [headerCheck nine]) = false ∧
    (let s := rxAt (.header { RxFrame.start with header := nine })
     s.resetPending = false ∧ s.store.freeRecs = 0 :: [1, 2, 3] ∧ 1 + 34 ≤ s.store.freePages.length ∧
     s.store.held.get .a + 1 ≤ s.quota .a) ∧
    (let s := ({ rxAt (.header { RxFrame.start with header := nine }) with
        store := { small.store with freePages := List.range 34 } } : State)
     s.hearsPlainly .a ∧ s.resetDue = false ∧ s.store.freePages.length < 1 + 34) := by
  unfold State.hearsPlainly; decide +kernel

theorem witness_EofDisposition :
    ((rxAt .waitSof).hearsPlainly .a ∧ (rxAt .waitSof).resetDue = false) ∧
    (rxAt (.header (headerOf 9))).hearsPlainly .a ∧
    (∀ f ∈ [inCheck 3, inCheck 4, without (inCheck 4)],
      (twoPages f .check).hearsPlainly .a ∧ (twoPages f .check).resetDue = false ∧ (twoPages f .check).roomy ∧
      ((twoPages f .check).trunk .a).rx.reception = .check f) ∧
    (twoPages inPayload .payload).hearsPlainly .a ∧ (inCheck 3).checkBytes.length < 4 ∧
    ({ inCheck 4 with damaged := true } : RxFrame).damaged = true ∧
    ({ inCheck 4 with check := 1 } : RxFrame).checkBytes ≠ beBytes 4 (1 : BitVec 32).toNat ∧
    ((inCheck 4).damaged = false ∧ (inCheck 4).checkBytes = beBytes 4 (inCheck 4).check.toNat) ∧
    ((twoPages (inCheck 4) .check).trunk .a).rx.lastSeq ≠ some (inCheck 4).seq ∧
    (((twoPages (inCheck 4) .check).onRx .a (fun x => { x with lastSeq := some 0 })).trunk .a).rx.lastSeq =
      some (inCheck 4).seq ∧
    (without (inCheck 4)).refused = true ∧ (inCheck 4).refused = false ∧ (inCheck 4).frame = some 5 := by
  unfold State.hearsPlainly State.roomy; decide

/-! ### Witnesses: the link -/

/-- Port A's link DOWN, one symbol short of the run. -/
def short (s : State) : State := s.onLink .a (fun l => { l with up := false, run := 63 })

/-- Beside a DOWN link and KEEP in WAIT_SOF: the frame of a HELD port, of one that awaits an ACK and of an acknowledged copy, under
FLUSH and under KEEP, and a frame in HEADER or PAYLOAD. -/
theorem witness_SilenceTimeoutEffect :
    (small.enabled .a = true ∧ (small.trunk .a).link.silence = true ∧ small.resetDue = false ∧
      (small.trunk .a).link.up = false) ∧
    (let s := upA (withFlight (flying .awaitingAck (some 500)))
     s.enabled .a = true ∧ (s.trunk .a).link.silence = true ∧ s.resetDue = false ∧ (s.trunk .a).link.up = true ∧
     (s.trunk .a).rx.reception = .waitSof ∧ (s.tx .a).acked = false ∧ s.params.linkDownPolicy = .keep ∧
     s.events.records.length < 32) ∧
    (∀ t ∈ [flying .held none, flying .awaitingAck (some 500), { flying .sending none with acked := true }],
      ∀ policy ∈ [LinkPolicy.keep, .flush],
        let s : State := { upA (withFlight t) with params := { Params.initial with linkDownPolicy := policy } }
        s.enabled .a = true ∧ (s.trunk .a).link.silence = true ∧ s.resetDue = false ∧ (s.trunk .a).link.up = true ∧
        (s.tx .a).sound = true ∧ s.roomy ∧ s.events.records ≠ [] ∧ s.params.linkDownPolicy = policy) ∧
    (∀ r, small.watches (portOf .a) r = false) ∧
    (let s := resetting .traffic (some (.a, flight.frame)) (upA (withFlight (flying .awaitingAck (some 500))))
     s.resetDue = false ∧ s.params.linkDownPolicy = .keep ∧ (s.tx .a).leavesAtDown .keep = false) ∧
    (∀ f, (small.trunk .a).rx.reception = .header f → f.frame = none) ∧ (headerOf 9).frame = none ∧
    (((upA (rxAt (.header (headerOf 9)))).trunk .a).rx.reception = .header (headerOf 9) ∧
      ((upA (twoPages inPayload .payload)).trunk .a).rx.reception = .payload inPayload ∧
      (upA (twoPages inPayload .payload)).roomy ∧ ((upA (twoPages inPayload .payload)).tx .a).sound = true) := by
  refine ⟨?_, ?_, ?_, fun _ => rfl, ?_, (fun f h => by cases h), ?_⟩ <;> try unfold State.roomy
  all_goals decide +kernel

/-- Port A one symbol short of the run: with no frame, HELD, and before a valid EOF of a good frame, whose symbol earlier in the run
raises no event. -/
theorem witness_RunOfSymbolsTakesLinkUp :
    (∀ s ∈ [short small, short (withFlight (flying .held none)), short (twoPages (inCheck 4) .check)],
      s.enabled .a = true ∧ (s.trunk .a).link.up = false ∧ (s.trunk .a).link.run + 1 = 64 ∧
      ((s.tx .a).inFlight = none ∨ (s.tx .a).state = .held) ∧ s.resetDue = false ∧ s.events.records ≠ []) ∧
    (let s := short (twoPages (inCheck 4) .check)
     ∃ t : State, exec (.eofReceived .a) (State.setTrunk { s with choices := s.choices + 2 } .a { s.trunk .a with
        link := { (s.trunk .a).link with run := 0 } }) = .next t ∧ t.events = s.events ∧ t.steer.backlogA = [5]) := by
  refine ⟨by decide +kernel, ⟨_, rfl, ?_, ?_⟩⟩ <;> decide +kernel

/-- Port A one symbol short of the run with `flight` suspended: it passes the residence check, or fails it by one millisecond. -/
theorem witness_LinkUpResumesFrame :
    (∀ x ∈ [(500, true), (501, false)],
      let s : State := { short (withFlight (flying .idle none)) with nodeTime := BitVec.ofNat 32 x.1 }
      s.enabled .a = true ∧ (s.trunk .a).link.up = false ∧ (s.trunk .a).link.run + 1 = 64 ∧ (s.tx .a).state = .idle ∧
      (s.tx .a).inFlight = some flight ∧ (s.trunk .a).rx.reception = .waitSof ∧ (s.tx .a).sent = true ∧
      s.resetDue = false ∧ s.watches (portOf .a) flight.frame = false ∧ s.roomy ∧ s.events.records ≠ [] ∧ flight.frame ∉ s.store.freeRecs ∧
      s.params.residenceLimit ≠ 0 ∧
      decide ((s.nodeTime - (s.record flight.frame).arrival).toNat ≤ s.params.residenceLimit) = x.2) := by
  unfold State.roomy; decide +kernel

theorem witness_CopyEndRetryAndAnswerSent_answer :
    (small.answer .a (.nak 3 .busy)).enabled .a = true ∧
    ((small.answer .a (.nak 3 .busy)).trunk .a).rx.answers = .nak 3 .busy :: [] := by decide +kernel

/-! ### Witnesses: steering -/

/-- A node of station 4, its Upstream port A. -/
def numbered (s : State) : State := { s with numbering := .numbered 4 .a }

/-- An entry that takes every DATA frame to the local port, with meter 31 and counter 63. -/
def metering : SteerEntry :=
  { SteerEntry.blank with
    valid := true, kinds := { data := true, mreq := false, mrsp := false, notice := false }
    delivery := { forward := false, turn := false, toLocal := true, mgmt := false }, meter := some 31, counter := some 63 }

/-- Station 4 with that entry at index 255 and meter 31 holding `level` bytes. -/
def metered (level : Nat) : State :=
  { (numbered (backlogged (dataHeader 4 9))) with
    steer := { (backlogged (dataHeader 4 9)).steer with bank0 := { table := [(255, metering)], map := [] } }
    meters := [(31, { enabled := true, rate := 1, burst := 10, level := level, action := .drop, exceed := 0 })] }

theorem witness_LookupServesBacklogsInTurn :
    (backlogged (dataHeader 4 9)).nextLookup .a 5 [] ∧
    ((small.setBacklog .l [5, 6]).setBacklog .a [7]).steer.lastServed = .l ∧
    ({ (small.setBacklog .l [5, 6]) with steer := { (small.setBacklog .l [5, 6]).steer with lastServed := .a } } :
      State).nextLookup .l 5 [6] := by
  unfold State.nextLookup; decide +kernel

theorem witness_LookupWithoutTables :
    (let s := backlogged (dataHeader 4 255)
     s.nextLookup (portOf .a) 5 [] ∧ kindOf (s.header 5).kind = some .data ∧ FrameKind.data.ordinary = true ∧
     (s.header 5).source = 255 ∧ (s.record 5).refs = 0 ∧ s.roomy) ∧
    (let s := backlogged { dataHeader 255 9 with kind := 4 }
     s.nextLookup (portOf .a) 5 [] ∧ kindOf (s.header 5).kind = some .enum ∧ (s.record 5).refs = 0 ∧
     s.isQueued 5 = false) ∧
    (let s := backlogged (dataHeader 4 254)
     s.nextLookup (portOf .a) 5 [] ∧ kindOf (s.header 5).kind = some .data ∧ (s.header 5).source ≠ 255 ∧
     s.numbering = .unnumbered ∧ (s.record 5).refs = 0 ∧ s.canPlace (portOf (otherPort .a)) (s.header 5).cls = true ∧
     ({ s with params := { s.params with queueDepthB := 0 } } : State).canPlace .b (s.header 5).cls = false ∧ s.roomy) ∧
    (let s := backlogged { dataHeader 0 9 with kind := 5 }
     let t := s.setQueues .b { c0 := [], c1 := List.range 64, c2 := [], c3 := [] }
     s.nextLookup (portOf .a) 5 [] ∧ kindOf (s.header 5).kind = some .enumEnd ∧ (s.record 5).refs = 0 ∧
     s.canPlace (portOf (otherPort .a)) (s.header 5).cls = true ∧ t.nextLookup (portOf .a) 5 [] ∧
     t.canPlace (portOf (otherPort .a)) (t.header 5).cls = false ∧ t.roomy) ∧
    (let s := (stored { dataHeader 255 255 with kind := 2 } [] .l).setBacklog .l [5]
     let t : State := { s with mgmt := { s.mgmt with queue := List.replicate 4 { frame := 9, requester := 7 } } }
     s.nextLookup .l 5 [] ∧ kindOf (s.header 5).kind = some .mreq ∧ s.numbering = .unnumbered ∧ (s.record 5).refs = 0 ∧
     s.mgmt.queue.length < 4 ∧ s.isQueued 5 = false ∧ t.nextLookup .l 5 [] ∧ 4 ≤ t.mgmt.queue.length ∧ t.roomy) := by
  unfold State.nextLookup State.roomy; decide +kernel

/-- Two matching entries of one priority at indexes 3 and 255, and one of a lower priority at index 0: index 3 wins. -/
def contested : Bank :=
  { table := [(0, { metering with priority := 1 }), (3, { metering with priority := 15, newTag := some 7 }),
      (255, { metering with priority := 15 })]
    map := [] }

theorem witness_WinnerIsBestMatch :
    (3 < 256 ∧ (contested.entry 3).holdsFor .a .a .data (dataHeader 4 9) ∧
      ∀ j, j < 256 → (contested.entry j).holdsFor .a .a .data (dataHeader 4 9) →
        (contested.entry j).priority < (contested.entry 3).priority ∨
          (contested.entry j).priority = (contested.entry 3).priority ∧ 3 ≤ j) ∧
    (contested.entry 255).holdsFor .a .a .data (dataHeader 4 9) := by
  simp only [← SteerEntry.matches_iff]
  decide +kernel

/-- Station 4 with one entry at index 255, one Channel Map entry at index 3, and meter 31 that every frame exceeds, with one
action. -/
def steered (h : Header) (e : SteerEntry) (m : MapEntry) (action : ExceedAction) : State :=
  { numbered (backlogged h) with
    steer := { (backlogged h).steer with bank0 := { table := [(255, e)], map := [(3, m)] } }
    meters := [(31, { enabled := true, rate := 1, burst := 9, level := 9, action := action, exceed := 0 })] }

/-- What a lookup statement asks of the state and the frame, for a frame from port A. -/
def takes (s : State) (k : FrameKind) (w : Option SteerEntry) : Prop :=
  s.nextLookup .a 5 [] ∧ s.numbering = .numbered 4 .a ∧ kindOf (s.header 5).kind = some k ∧ k.ordinary = true ∧
    (s.header 5).source ≠ 255 ∧ (s.record 5).refs = 0 ∧ s.roomy ∧ w = s.activeBank.winner .a .a k (s.header 5)

/-- A Channel Map entry that decides: to the other trunk port in class 2. -/
def mapping : MapEntry :=
  { defer := false, delivery := { Delivery.empty with forward := true }, classOverride := some 2 }

/-- Default steering, a DIRECT entry under each exceed action, a BY-CHANNEL entry with its map entry deciding and deferring, and a
protected MREQ that meets DROP. -/
theorem witness_LookupSteersByDecision :
    (let s := numbered (backlogged (dataHeader 255 9))
     takes s .data none ∧
     s.decides none .data (s.header 5) 4 { Delivery.empty with toLocal := true, forward := true } 1 ∧
     s.exceeds none 10 = none) ∧
    (∀ x ∈ [ExceedAction.drop, .mark, .demote],
      let s := steered (dataHeader 4 9) metering mapping x
      takes s .data (some metering) ∧ s.decides (some metering) .data (s.header 5) 4 metering.delivery 1 ∧
      s.exceeds (some metering) (s.record 5).size = some x ∧ (s.record 5).pages = [100] ∧ 10 ≤ (s.record 5).size) ∧
    (let e : SteerEntry := { metering with byChannel := true, meter := none }
     let s := steered (dataHeader 4 9) e mapping .drop
     takes s .data (some e) ∧ s.decides (some e) .data (s.header 5) 4 mapping.delivery 2 ∧
     s.exceeds (some e) (s.record 5).size = none) ∧
    (let e : SteerEntry := { metering with byChannel := true, meter := none, classOverride := some 3 }
     let s := steered (dataHeader 5 9) e MapEntry.blank .drop
     takes s .data (some e) ∧
     s.decides (some e) .data (s.header 5) 4 { Delivery.empty with forward := true } 3) ∧
    (let e : SteerEntry := { metering with kinds := { metering.kinds with mreq := true } }
     let s := steered { dataHeader 255 9 with kind := 2 } e mapping .drop
     takes s .mreq (some e) ∧ s.exceeds (some e) (s.record 5).size = some .drop ∧
     e.delivery.namesMgmt .mreq (s.header 5) 4 true = true) := by
  unfold takes State.nextLookup State.roomy
  refine ⟨⟨?_, ?_, ?_⟩, ?_, ⟨?_, ?_, ?_⟩, ⟨?_, ?_⟩, ?_⟩
  · decide +kernel
  · exact ⟨by decide +kernel, by decide +kernel⟩
  · decide +kernel
  · intro x hx
    refine ⟨?_, .inl ⟨rfl, rfl, ?_⟩, ?_, ?_, ?_⟩ <;> revert x <;> decide +kernel
  · decide +kernel
  · exact .inr (.inl (by decide +kernel))
  · decide +kernel
  · decide +kernel
  · exact .inr (.inr (by decide +kernel))
  · decide +kernel

/-- A winner with meter and counter whose meter lets the frame pass, is disabled, is exceeded; one with a meter alone, one with a
counter alone, one with neither. -/
theorem witness_LookupChargesWinner :
    (let s := metered 10
     s.nextLookup .a 5 [] ∧ s.numbering = .numbered 4 .a ∧ kindOf (s.header 5).kind = some .data ∧
     (s.header 5).source ≠ 255 ∧ s.activeBank.winner .a .a .data (s.header 5) = some metering ∧
     metering.meter = some 31 ∧ metering.counter = some 63 ∧ (s.meter 31).enabled = true ∧
     (s.record 5).size ≤ (s.meter 31).level ∧ (({ s with meters := [] } : State).meter 31).enabled = false) ∧
    (let s := metered 9
     s.nextLookup .a 5 [] ∧ s.activeBank.winner .a .a .data (s.header 5) = some metering ∧
     (s.meter 31).level < (s.record 5).size ∧ (s.meter 31).action = .drop ∧
     isProtected .data (s.header 5) 4 = false ∧ (s.record 5).refs = 0 ∧ s.roomy) ∧
    (let s := steered (dataHeader 4 9) metering mapping .mark
     (s.meter 31).level < (s.record 5).size ∧ (s.meter 31).action ≠ .drop) ∧
    (∀ e ∈ [{ metering with counter := none }, { metering with meter := none }, { metering with meter := none, counter := none }],
      let s := steered (dataHeader 4 9) e mapping .mark
      s.nextLookup .a 5 [] ∧ s.activeBank.winner .a .a .data (s.header 5) = some e) := by
  unfold State.nextLookup State.roomy; decide +kernel

/-! ### Witnesses: numbering -/

/-- A held ENUM, record 5, with a payload, come in at port A. -/
def offered (payload : List Byte) : State :=
  { stored { dataHeader 255 3 with kind := 4, length := 4 } payload .a with enums := [5] }

theorem witness_EnumHandlingTakesOrMisdirects :
    (let s := offered [254, 0, 0, 1]
     s.enums = [5] ∧ (s.record 5).source = trunkSource .a ∧
     enumOffer (s.payload 5) = some { next := 254, force := false, run := 1 } ∧ s.numbering = .unnumbered ∧
     (254 : Station) ≠ 255 ∧ s.events.records.length < 32) ∧
    (let s := { offered [254, 0, 0, 1] with numbering := .numbered 4 .b }
     (s.record 5).source = trunkSource .a ∧
     enumOffer (s.payload 5) = some { next := 254, force := false, run := 1 } ∧ s.numbering = .numbered 4 .b ∧
     TrunkPort.a ≠ .b ∧ s.roomy) ∧
    (let s := { offered [1, 1, 0, 1] with numbering := .numbered 4 .b }
     enumOffer (s.payload 5) = some { next := 1, force := true, run := 1 } ∧ (1 : Station) ≠ 255) ∧
    (((offered [1, 0, 0]).payload 5).length ≠ 4 ∧ byteAt ((offered [0, 0, 0, 1]).payload 5) 0 = 0 ∧
      1 < (byteAt ((offered [1, 2, 0, 1]).payload 5) 1).toNat ∧ (offered [1, 2, 0, 1]).roomy) ∧
    ({ offered [1, 0, 0, 1] with enums := [5, 6] } : State).enums = 5 :: 6 :: [] := by
  unfold State.roomy; decide +kernel

/-- Case by case: the number taken with the other port UP and DOWN, an unforced ENUM on the Upstream port of station 254, a full line at
an unnumbered and at a forced node; with room and a place, with room and the queue full, and with no record. -/
theorem witness_EnumPassesOnOrEndsLine :
    (∀ x ∈ [(Numbering.unnumbered, ([254, 0, 9, 8] : List Byte)), (.numbered 254 .a, [255, 0, 9, 8]),
        (.unnumbered, [255, 0, 9, 8]), (.numbered 4 .b, [255, 1, 9, 8]), (.numbered 4 .b, [1, 1, 9, 8])],
      let s : State := { offered x.2 with numbering := x.1 }
      s.enums = [5] ∧ (s.record 5).source = trunkSource .a ∧ s.payload 5 = x.2 ∧ s.events.records ≠ [] ∧
      s.usable .b = false ∧ (s.onLink .b (fun l => { l with up := true })).usable .b = true ∧
      s.canPlace .a 0 = true ∧ s.canPlace .b 0 = true ∧
      (s.setQueues .a { c0 := List.range 64, c1 := [], c2 := [], c3 := [] }).canPlace .a 0 = false ∧ (0 : Nat) ≠ 5 ∧
      s.store.freeRecs = 0 :: [1, 2, 3] ∧ 1 ≤ s.store.freePages.length ∧ s.store.held.get .i + 1 ≤ s.quota .i ∧
      1 + Config.reserve ≤ s.store.freePages.length ∧ s.roomy ∧
      ({ s with store := { s.store with freeRecs := [] } } : State).lacksRoom 1) := by
  unfold State.roomy State.lacksRoom; decide +kernel

/-! ### Witnesses: transmission -/

/-- Port A UP and IDLE with one frame queued that arrived `age` milliseconds ago. -/
def queued (age : Nat) : State :=
  { ((withFlight .initial).onLink .a (fun l => { l with up := true, run := 64 })) with nodeTime := BitVec.ofNat 32 age }

theorem witness_TxSelectSendsOrDiscardsHead :
    (let s := queued 500
     (s.tx .a).state = .idle ∧ (s.tx .a).inFlight = none ∧ s.enabled .a = true ∧ (s.trunk .a).link.up = true ∧
     (s.trunk .a).queues.entries = flight :: [] ∧
     (s.nodeTime - (s.record flight.frame).arrival).toNat ≤ s.params.residenceLimit ∧ s.resetDue = false) ∧
    (let s := queued 501
     (s.trunk .a).queues.entries = [flight] ∧ s.params.residenceLimit ≠ 0 ∧
     s.params.residenceLimit < (s.nodeTime - (s.record flight.frame).arrival).toNat ∧ s.roomy ∧
     s.resetDue = false ∧ s.watches (portOf .a) flight.frame = false) := by
  unfold State.roomy; decide +kernel

theorem witness_CopyEndRetryAndAnswerSent :
    (let s := withFlight (flying .sending none)
     (s.tx .a).state = .sending ∧ (s.tx .a).inFlight = some flight ∧ (s.tx .a).acked = false ∧ s.resetDue = false) ∧
    (let s := { withFlight (flying .retryWait (some 100)) with nodeTime := 500 }
     (s.tx .a).state = .retryWait ∧ (s.tx .a).timer.isSome = true ∧ (s.tx .a).inFlight = some flight ∧
     (s.tx .a).sent = true ∧ (s.nodeTime - (s.record flight.frame).arrival).toNat ≤ s.params.residenceLimit ∧
     s.resetDue = false) := by decide +kernel

theorem witness_AckCompletesIsRememberedOrStray :
    (let s := withFlight (flying .awaitingAck (some 500))
     (s.tx .a).inFlight = some flight ∧ (s.tx .a).sent = true ∧ s.roomy ∧ s.resetDue = false ∧ s.watches (portOf .a) flight.frame = false ∧ s.hearsPlainly .a ∧
     (s.tx .a).state = .awaitingAck ∧ (s.tx .a).txSeq = 7) ∧
    (let s := withFlight { flying .sending none with acked := true }
     (s.tx .a).inFlight = some flight ∧ (s.tx .a).sent = true ∧ s.roomy ∧ s.resetDue = false ∧ s.watches (portOf .a) flight.frame = false ∧
     (s.tx .a).state = .sending ∧ (s.tx .a).acked = true) := by
  unfold State.hearsPlainly State.roomy; decide +kernel

theorem witness_AckCompletesIsRememberedOrStray_stray :
    (let s := withFlight (flying .sending none)
     s.hearsPlainly .a ∧ s.resetDue = false ∧ (s.tx .a).txSeq = 7 ∧ (s.tx .a).state = .sending ∧
     (s.tx .a).acked = false) ∧
    (let s := withFlight (flying .awaitingAck (some 500))
     s.hearsPlainly .a ∧ s.resetDue = false ∧ (0 : LinkSeq) ≠ (s.tx .a).txSeq) ∧
    (let s := withFlight (flying .retryWait (some 100))
     s.hearsPlainly .a ∧ s.resetDue = false ∧ (s.tx .a).state ≠ .awaitingAck) := by
  unfold State.hearsPlainly; decide +kernel

theorem witness_FailedAttemptWaitsOrExhausts :
    (let s := withFlight { flying .awaitingAck (some 500) with attempts := 6 }
     (s.tx .a).state = .awaitingAck ∧ s.resetDue = false ∧ s.hearsPlainly .a ∧ (s.tx .a).attempts + 1 < s.retryLimit .a ∧
     (s.tx .a).timer.isSome = true) ∧
    (let s := withFlight { flying .awaitingAck (some 500) with attempts := 7 }
     let t := { s with params := { s.params with retryPolicyA := .hold } }
     let u := { s with params := { s.params with retryPolicyA := .again } }
     s.retryLimit .a ≤ (s.tx .a).attempts + 1 ∧ s.resetDue = false ∧ s.watches (portOf .a) flight.frame = false ∧ t.retryPolicy .a = .hold ∧
     t.events.records.length < 31 ∧ u.retryPolicy .a = .again ∧ s.retryPolicy .a = .drop ∧
     (s.tx .a).inFlight = some flight ∧ s.roomy) := by
  unfold State.hearsPlainly State.roomy; decide +kernel

/-! ### Witnesses: management commands -/

/-- A command in a response of 1,023 bytes, where two data bytes would pass 1,024. -/
def brimful (code : Byte) (args : List Byte) : Execution :=
  { standing code args with count := 2, done := [{ code := 0x02, result := .ok, data := List.replicate 1011 0 }] }

/-- With an empty response, and with one so full that the records of no meter fit. -/
theorem witness_ReadMeterAnswers :
    (∀ x ∈ [([0, 0] : List Byte), [0, 9], [25, 8], [24, 8], [0, 255]],
      (cmdAt 0x0B x).standsAt (standing 0x0B x) { code := 0x0B, args := x } [] ∧
      ({ code := 0x0B, args := x } : Cmd).formed 0x0B ∧
      (standing 0x0B x).admits { code := 0x0B, args := x } 0x0B (11 * 8) ∧ 1024 < (brimful 0x0B x).used + 11) ∧
    8 < (9 : Byte).toNat ∧ 32 < (25 : Byte).toNat + (8 : Byte).toNat ∧ (24 : Byte).toNat + (8 : Byte).toNat ≤ 32 := by
  unfold State.standsAt Execution.admits Cmd.formed; decide +kernel

theorem witness_MeterTickAndWriteMeter :
    let x : List Byte := [31, 0x82, 0, 100, 1, 0]
    (cmdAt 0x0C x).standsAt (standing 0x0C x) { code := 0x0C, args := x } [] ∧
      (standing 0x0C x).admits { code := 0x0C, args := x } 0x0C 0 ∧ (31 : Byte).toNat ≤ 31 ∧
      controlOf 0x82 = some (true, .mark) ∧ (cmdAt 0x0C x).lockRefuses 7 = false := by
  unfold State.standsAt Execution.admits; decide

theorem witness_ReadCountersAndClear :
    (∀ f ∈ [(0 : Byte), 1],
      (cmdAt 0x0D [0, 0, 64, f]).standsAt (standing 0x0D [0, 0, 64, f]) { code := 0x0D, args := [0, 0, 64, f] } [] ∧
      (standing 0x0D [0, 0, 64, f]).admits { code := 0x0D, args := [0, 0, 64, f] } 0x0D (10 * 64) ∧
      (cmdAt 0x0D [0, 0, 64, f]).lockRefuses 7 = false) ∧
    (0 : Byte).toNat + (64 : Byte).toNat ≤ 64 ∧
    (∀ args, (cmdAt 0x0D args).standsAt (standing 0x0D args) { code := 0x0D, args := args } []) ∧
    (∀ s : State, (s.statistics 1).length = 13 ∧ (s.statistics 2).length = 13 ∧ (s.statistics 3).length = 5 ∧
      (s.statistics 4).length = 6) ∧
    (∀ group start count clear, (standing 0x0D [group, start, count, clear]).admits
      { code := 0x0D, args := [group, start, count, clear] } 0x0D (2 * 13)) ∧
    (0 : Byte).toNat + (13 : Byte).toNat ≤ 13 ∧ 13 < (1 : Byte).toNat + (13 : Byte).toNat ∧
    ({ code := 0x0D, args := [5, 0, 1, 0] } : Cmd).formed 0x0D ∧ 4 < (5 : Byte).toNat ∧ 1 < (2 : Byte).toNat ∧
    64 < (1 : Byte).toNat + (64 : Byte).toNat := by
  refine ⟨?_, ?_, fun _ => ⟨rfl, rfl⟩, fun _ => ⟨rfl, rfl, rfl, rfl⟩,
    fun _ _ _ _ => ⟨rfl, rfl, by show 4 + 4 * 1 + 0 + 2 * 13 ≤ 1024; decide⟩, ?_, ?_, ⟨rfl, rfl⟩, ?_⟩ <;>
    try unfold State.standsAt Execution.admits
  all_goals decide

/-- Statistics 1 and 2 of a port, read as two bytes each in the order of R114, and cleared alone. -/
theorem test_statistics_cleared :
    let s := small.onTrunk .b (fun t => { t with stats := { t.stats with framesStored := 5, duplicates := 0x0102, headerErrors := 7 } })
    ((s.statistics 2).drop 1).take 2 = [0x0102, 7] ∧
      (clearedRange (s.statistics 2) 1 2).take 4 = [5, 0, 0, 0] := by decide

/-- Every row with a command of its code that has one argument byte too many, and the argument that splits its row. -/
def overlong : List (Instr × Byte × List Byte) :=
  [(.info, 0x01, [0]), (.readSteer, 0x02, [0, 0, 1, 0]), (.writeSteer, 0x03, []), (.readChmap, 0x04, [0, 0, 1, 0]),
    (.writeChmap, 0x05, []), (.openEdit, 0x06, [0]), (.closeEdit, 0x07, [0]), (.sync, 0x08, [0]), (.commit, 0x09, [0]),
    (.editStatus, 0x0A, [0]), (.readMeter, 0x0B, []), (.writeMeter, 0x0C, []), (.readCounters, 0x0D, [0, 0, 1, 0, 0]),
    (.readCountersClear, 0x0D, [0, 0, 1, 1, 0]), (.readParam, 0x0E, []), (.writeParam, 0x0F, [5]),
    (.portEnableWrite, 0x0F, [17]), (.attentionMaskWrite, 0x0F, [21]), (.releasePortRetry, 0x10, [1]),
    (.releasePortDrop, 0x10, [1, 2, 0]), (.releasePortFlush, 0x10, [1, 3, 0]), (.readEvents, 0x11, []),
    (.resetNode, 0x12, [])]

theorem witness_AnswerEndsCommand :
    overlong.map Prod.fst = requestCommands ∧
    (∀ x ∈ overlong,
      (cmdAt x.2.1 x.2.2).standsAt (standing x.2.1 x.2.2) { code := x.2.1, args := x.2.2 } [] ∧
      rowTakes x.1 { code := x.2.1, args := x.2.2 } = true ∧ (cmdAt x.2.1 x.2.2).session.swapRequested = false ∧
      argLength x.2.1 ≠ some x.2.2.length) ∧
    rowTakes .writeParam { code := 0x0F, args := [17, 0, 1] } = false ∧
    (let s := small.setExecutor (.executing (brimful 0x0E [5]))
     let e0 : Execution := { brimful 0x0E [5] with count := 1, done := [] }
     let s0 : State := { s with mgmt := { s.mgmt with executor := .executing e0 } }
     s.standsAt (brimful 0x0E [5]) { code := 0x0E, args := [5] } [] ∧
     rowTakes .readParam { code := 0x0E, args := [5] } = true ∧
     exec .readParam s0 = .next (s0.answerCmd e0 { code := 0x0E, args := [5] } [] .ok (halfBytes 500) none) ∧
     1024 < (brimful 0x0E [5]).used + (halfBytes 500).length) ∧
    (let s := { ownedAt 0x09 [] .opened with mgmt := { small.mgmt with executor := .executing (brimful 0x09 []) } }
     s.standsAt (brimful 0x09 []) { code := 0x09, args := [] } [] ∧ rowTakes .commit { code := 0x09, args := [] } = true ∧
     s.session.swapRequested = false ∧ argLength 0x09 = some ([] : List Byte).length ∧ s.session.state = .opened ∧
     s.session.owner = some (brimful 0x09 []).requester ∧ 1024 < (brimful 0x09 []).used + 2) := by
  refine ⟨?_, ?_, ?_, ⟨?_, ?_, rfl, ?_⟩, ?_⟩ <;> try unfold State.standsAt
  all_goals decide +kernel

theorem witness_SessionOpensAndCloses :
    ((cmdAt 0x06 []).standsAt (standing 0x06 []) { code := 0x06, args := [] } [] ∧
      (standing 0x06 []).admits { code := 0x06, args := [] } 0x06 0 ∧ (cmdAt 0x06 []).session.state = .closed ∧
      (ownedAt 0x06 [] .syncing).session.state ≠ .closed ∧ (ownedAt 0x06 [] .syncing).session.owner = some 7 ∧
      (lockedAt 0x06 []).session.state ≠ .closed ∧ (lockedAt 0x06 []).session.owner ≠ some 7) ∧
    ((ownedAt 0x07 [] .opened).standsAt (standing 0x07 []) { code := 0x07, args := [] } [] ∧
      (standing 0x07 []).admits { code := 0x07, args := [] } 0x07 0) ∧
    (ownedAt 0x07 [] .opened).session.timer.isSome = true := by
  unfold State.standsAt Execution.admits; decide

theorem witness_ShadowWritesReplaceEntry :
    (let x : List Byte := 255 :: encodeEntry metering
     (ownedAt 0x03 x .opened).standsAt (standing 0x03 x) { code := 0x03, args := x } [] ∧
     (standing 0x03 x).admits { code := 0x03, args := x } 0x03 0 ∧ decodeEntry (encodeEntry metering) = some metering ∧
     (ownedAt 0x03 x .opened).session.state = .opened ∧ (ownedAt 0x03 x .opened).session.owner = some 7) ∧
    (let x : List Byte := [63, 0xC9]
     (ownedAt 0x05 x .opened).standsAt (standing 0x05 x) { code := 0x05, args := x } [] ∧
     (standing 0x05 x).admits { code := 0x05, args := x } 0x05 0 ∧ (63 : Byte).toNat ≤ 63) := by
  unfold State.standsAt Execution.admits; decide +kernel

theorem witness_BankReadsReturnEntries :
    (let x : List Byte := [0, 248, 8]
     (ownedAt 0x02 x .syncing).standsAt (standing 0x02 x) { code := 0x02, args := x } [] ∧
     (standing 0x02 x).admits { code := 0x02, args := x } 0x02 (20 * 8) ∧
     (248 : Byte).toNat + (8 : Byte).toNat ≤ 256) ∧
    (let x : List Byte := [1, 48, 16]
     (ownedAt 0x04 x .opened).standsAt (standing 0x04 x) { code := 0x04, args := x } [] ∧
     (standing 0x04 x).admits { code := 0x04, args := x } 0x04 16 ∧ (ownedAt 0x04 x .opened).session.state ≠ .syncing ∧
     (48 : Byte).toNat + (16 : Byte).toNat ≤ 64) ∧
    (∀ x ∈ [([2, 0, 1] : List Byte), [0, 0, 0], [0, 0, 9], [1, 249, 8], [1, 248, 8]],
      (ownedAt 0x02 x .syncing).standsAt (standing 0x02 x) { code := 0x02, args := x } [] ∧
      ({ code := 0x02, args := x } : Cmd).formed 0x02 ∧ (ownedAt 0x02 x .syncing).session.state = .syncing) ∧
    1 < (2 : Byte).toNat ∧ 8 < (9 : Byte).toNat ∧ 256 < (249 : Byte).toNat + (8 : Byte).toNat ∧
    ({ code := 0x04, args := [1, 49, 16] } : Cmd).formed 0x04 ∧ 64 < (49 : Byte).toNat + (16 : Byte).toNat := by
  unfold State.standsAt Execution.admits Cmd.formed; decide

theorem witness_SyncCopiesEntryByEntry :
    ((ownedAt 0x08 [] .opened).standsAt (standing 0x08 []) { code := 0x08, args := [] } [] ∧
      (standing 0x08 []).admits { code := 0x08, args := [] } 0x08 0 ∧ (ownedAt 0x08 [] .opened).session.owner = some 7) ∧
    (ownedAt 0x08 [] .syncing).session.state = .syncing ∧
    (ownedAt 0x08 [] .syncing).session.cursor < 256 ∧ 256 ≤ 256 ∧ ¬319 + 1 < 320 := by
  unfold State.standsAt Execution.admits; decide

theorem witness_CommitSwapsBanks :
    let s := ownedAt 0x09 [] .opened
    s.standsAt (standing 0x09 []) { code := 0x09, args := [] } [] ∧
      (standing 0x09 []).admits { code := 0x09, args := [] } 0x09 2 ∧ s.session.state = .opened ∧
      s.session.owner = some 7 ∧ s.session.swapRequested = false ∧
      ({ s with session := { s.session with swapRequested := true } } : State).session.swapRequested = true ∧
      ({ s with session := { s.session with swapRequested := true, swapTaken := true } } : State).session.swapTaken = true := by
  unfold State.standsAt Execution.admits; decide

/-- An MREQ of station 7, record 5, at the head of M, with a payload. -/
def requested (payload : List Byte) : State :=
  let s := stored { dataHeader 4 7 with kind := 2, length := BitVec.ofNat 11 payload.length } payload .a
  { s with mgmt := { s.mgmt with queue := [{ frame := 5, requester := 7 }] } }

/-- That request a second time, its response cached in record 9, a one-page frame to station 255. -/
def asked : State :=
  let s := (requested [0x12, 0x34, 1, 0x01, 0]).setRecord 9
    { state := .waiting, source := .i, size := 10, pages := [101], arrival := 0, refs := 1 }
  { s.fill 9 0 (encodeHeader (ownHeader .mrsp 255 255 3 1 0)) with
    mgmt :=
      { s.mgmt with
        cache := [{ requester := 9, id := 0x1234, frame := 8 }, { requester := 7, id := 0x1234, frame := 9 }] } }

/-- A miss with a well-formed and with a malformed request; a hit whose port holds the response, has room for it, has none. -/
theorem witness_RequestStartParsesOrReplays :
    (let s := requested [0x12, 0x34, 1, 0x01, 0]
     s.mgmt.executor = .idle ∧ s.mgmt.queue = { frame := 5, requester := 7 } :: [] ∧
     s.cached 7 (requestId (s.payload 5)) = none ∧
     parseRequest (s.payload 5) = some [{ code := 0x01, args := [] }]) ∧
    (let s := requested [0x12, 0x34, 17]
     s.cached 7 (requestId (s.payload 5)) = none ∧ parseRequest (s.payload 5) = none) ∧
    (∀ s ∈ [asked.setQueues .l { c0 := [9], c1 := [], c2 := [], c3 := [] }, asked,
        asked.setQueues .l { c0 := List.range 64 |>.map (· + 10), c1 := [], c2 := [], c3 := [] }],
      s.mgmt.executor = .idle ∧ s.mgmt.queue = { frame := 5, requester := 7 } :: [] ∧
      s.mgmt.cache.find? (fun x => x.requester == 7 && x.id == requestId (s.payload 5)) =
        some { requester := 7, id := 0x1234, frame := 9 } ∧
      s.routeByDest (s.header 9).dest = some .l ∧ s.roomy) ∧
    ((asked.setQueues .l { c0 := [9], c1 := [], c2 := [], c3 := [] }).queues .l).holds 9 = true ∧
    ((asked.queues .l).holds 9 = false ∧ asked.canPlace .l 0 = true) ∧
    (let s := asked.setQueues .l { c0 := List.range 64 |>.map (· + 10), c1 := [], c2 := [], c3 := [] }
     (s.queues .l).holds 9 = false ∧ s.canPlace .l 0 = false) := by
  unfold State.roomy; decide +kernel

theorem witness_InfoAndEditStatusAnswer :
    ((cmdAt 0x01 []).standsAt (standing 0x01 []) { code := 0x01, args := [] } [] ∧
      (standing 0x01 []).admits { code := 0x01, args := [] } 0x01 15) ∧
    ((lockedAt 0x0A []).standsAt (standing 0x0A []) { code := 0x0A, args := [] } [] ∧
      (standing 0x0A []).admits { code := 0x0A, args := [] } 0x0A 4) := by
  unfold State.standsAt Execution.admits; decide

theorem witness_ReadParamAnswers :
    (∀ n ∈ [(0 : Byte), 1, 21, 22],
      (cmdAt 0x0E [n]).standsAt (standing 0x0E [n]) { code := 0x0E, args := [n] } [] ∧
      ({ code := 0x0E, args := [n] } : Cmd).formed 0x0E ∧
      (standing 0x0E [n]).admits { code := 0x0E, args := [n] } 0x0E 2) ∧
    21 < (22 : Byte).toNat ∧ (21 : Byte).toNat ≤ 21 ∧ 1024 < (brimful 0x0E [0]).used + 2 := by
  unfold State.standsAt Execution.admits Cmd.formed; decide +kernel

theorem witness_WriteParamTakesValue :
    (∀ x ∈ [([5, 0x31, 0xCE] : List Byte), [21, 0x3F, 0xFE], [17, 0, 1]],
      (cmdAt 0x0F x).standsAt (standing 0x0F x) { code := 0x0F, args := x } [] ∧
      (standing 0x0F x).admits { code := 0x0F, args := x } 0x0F 0 ∧ (cmdAt 0x0F x).lockRefuses 7 = false) ∧
    paramValid 5 (half 0x31 0xCE).toNat = true ∧ paramValid 21 (half 0x3F 0xFE).toNat = true ∧
    paramValid 17 (half 0 1).toNat = true := by
  unfold State.standsAt Execution.admits; decide

theorem witness_PortEnableWriteSwitches :
    (∀ x ∈ [([17, 0, 1] : List Byte), [17, 0, 0]],
      (cmdAt 0x0F x).standsAt (standing 0x0F x) { code := 0x0F, args := x } [] ∧
      (standing 0x0F x).admits { code := 0x0F, args := x } 0x0F 0 ∧ (cmdAt 0x0F x).lockRefuses 7 = false ∧
      (cmdAt 0x0F x).enabled .a = true ∧ ((cmdAt 0x0F x).trunk .a).link.up = false ∧
      ((cmdAt 0x0F x).trunk .a).rx.reception.record? = none ∧
      ({ cmdAt 0x0F x with params := { Params.initial with portEnableA := false } } : State).enabled .a = false) ∧
    (let s := (upA (twoPages inPayload .payload)).setExecutor (.executing (standing 0x0F [17, 0, 0]))
     s.standsAt (standing 0x0F [17, 0, 0]) { code := 0x0F, args := [17, 0, 0] } [] ∧ s.lockRefuses 7 = false ∧
     s.enabled .a = true ∧ (s.trunk .a).link.up = true ∧ (s.tx .a).sound = true ∧ s.roomy ∧ s.events.records ≠ [] ∧
     (s.trunk .a).rx.reception.record? = some 5) := by
  unfold State.standsAt Execution.admits State.roomy; decide

/-- Station 7 at a RELEASE_PORT of port A, which is HELD with `flight`, its link UP. -/
def releasing (d : Byte) : State :=
  (((withFlight (flying .held none)).onLink .a (fun l => { l with up := true, run := 64 })).setExecutor
    (.executing (standing 0x10 [1, d])))

/-- A HELD port, usable and not, under each disposition; and one that is not HELD. -/
theorem witness_ReleasePortCarriesOut :
    (∀ d ∈ [(1 : Byte), 2, 3],
      (releasing d).standsAt (standing 0x10 [1, d]) { code := 0x10, args := [1, d] } [] ∧
      ({ code := 0x10, args := [1, d] } : Cmd).formed 0x10 ∧
      (standing 0x10 [1, d]).admits { code := 0x10, args := [1, d] } 0x10 0 ∧ trunkPortOf 1 = some .a ∧
      (releasing d).lockRefuses 7 = false ∧ ((releasing d).tx .a).state = .held ∧
      ((releasing d).tx .a).inFlight = some flight ∧ ((releasing d).tx .a).sent = true ∧ (releasing d).usable .a = true ∧
      ((releasing d).onLink .a (fun l => { l with up := false })).usable .a = false ∧
      (releasing d).roomy ∧ ((cmdAt 0x10 [1, d]).tx .a).state ≠ .held ∧ (cmdAt 0x10 [1, d]).lockRefuses 7 = false) := by
  unfold State.standsAt Execution.admits State.roomy Cmd.formed; decide +kernel

theorem witness_ReadEventsDrainsQueue :
    (cmdAt 0x11 [16]).standsAt (standing 0x11 [16]) { code := 0x11, args := [16] } [] ∧ (16 : Byte).toNat ≤ 16 ∧
      min (16 : Byte).toNat (cmdAt 0x11 [16]).events.records.length = 1 ∧
      (standing 0x11 [16]).admits { code := 0x11, args := [16] } 0x11 (3 + 10 * 1) := by
  unfold State.standsAt Execution.admits; decide

/-- Station 4 with an empty event queue and a monitor station. -/
def monitored (m : Station) : State :=
  { numbered small with
    params := { Params.initial with monitorStation := some m }
    events := { EventQueue.initial with records := [], attention := false } }

/-- An append to a full queue, to one of 31, and to an empty one with no notice due; a notice due to each of the three targets, refused,
with room, with the one page that leaves 33, and with its queue full. -/
theorem witness_AppendStoresLosesAndNotifies :
    (let e : EventRecord := { seq := 0, kind := .linkUp, port := none, time := 0, detail := none }
     32 ≤ ({ small with events := { small.events with records := List.replicate 32 e } } : State).events.records.length ∧
     ({ small with events := { small.events with records := List.replicate 31 e } } : State).events.records.length < 32 ∧
     ({ small with events := { small.events with records := List.replicate 31 e } } : State).events.records ≠ []) ∧
    (∀ m ∈ [(4 : Station), 3, 5, 254],
      let s := monitored m
      s.events.records = [] ∧ s.params.monitorStation = some m ∧ s.numbering = .numbered 4 .a ∧
      s.events.noticeOutstanding = false ∧ s.store.freeRecs = 0 :: [1, 2, 3] ∧
      s.store.freePages = 0 :: (List.range 64).drop 1 ∧ s.store.held.get .i + 1 ≤ s.quota .i ∧
      ({ s with params := { s.params with quotaI := 0 } } : State).lacksRoom 1 ∧
      s.canPlace .l 0 = true ∧ s.canPlace .a 0 = true ∧ s.canPlace .b 0 = true) ∧
    ({ small with store := { small.store with freePages := List.range 34 } } : State).store.watermark = .armed ∧
    ((List.range 34).drop 1).length < 34 ∧
    ((monitored 4).setQueues .l { c0 := List.range 64, c1 := [], c2 := [], c3 := [] }).canPlace .l 0 = false ∧
    (monitored 4).events.records = [] ∧ small.numbering = .unnumbered := by
  unfold State.lacksRoom; decide +kernel

theorem witness_ResetNodeRecordsScope :
    (∀ x ∈ [(1 : Byte), 2, 0, 3],
      (cmdAt 0x12 [x]).standsAt (standing 0x12 [x]) { code := 0x12, args := [x] } [] ∧
      ({ code := 0x12, args := [x] } : Cmd).formed 0x12 ∧
      (standing 0x12 [x]).admits { code := 0x12, args := [x] } 0x12 0 ∧ (cmdAt 0x12 [x]).lockRefuses 7 = false ∧
      (lockedAt 0x12 [x]).session.state ≠ .closed ∧ (lockedAt 0x12 [x]).session.owner ≠ some 7) ∧
    (let c : Cmd := { code := 0x12, args := [1] }
     let d : Cmd := { code := 0x01, args := [] }
     let e : Execution := { standing 0x12 [1] with count := 2, todo := [c, d] }
     (small.setExecutor (.executing e)).standsAt e c [d] ∧ c.formed 0x12) := by
  unfold State.standsAt Execution.admits Cmd.formed; decide

/-- Every guarded row with arguments that pass its own checks, and with such as do not, before a session of another station; the five
session commands in a closed, a foreign and a copying session. -/
theorem witness_LockAndSessionRefuse :
    (∀ x ∈ [(Instr.writeParam, (0x0F : Byte), ([5, 0, 50] : List Byte)), (.writeParam, 0x0F, [0, 0, 0]), (.writeParam, 0x0F, [22, 0, 0]),
        (.writeParam, 0x0F, [5, 0, 49]), (.portEnableWrite, 0x0F, [17, 0, 1]), (.portEnableWrite, 0x0F, [18, 0, 2]),
        (.attentionMaskWrite, 0x0F, [21, 0x3F, 0xFE]), (.attentionMaskWrite, 0x0F, [21, 0, 1]),
        (.writeMeter, 0x0C, [31, 0x82, 0, 1, 0, 1]), (.writeMeter, 0x0C, [32, 0, 0, 1, 0, 1]), (.writeMeter, 0x0C, [0, 3, 0, 1, 0, 1]),
        (.releasePortRetry, 0x10, [1, 1]), (.releasePortRetry, 0x10, [2, 0]), (.releasePortRetry, 0x10, [2, 4]),
        (.releasePortDrop, 0x10, [2, 2]), (.releasePortFlush, 0x10, [1, 3]), (.releasePortFlush, 0x10, [3, 3]),
        (.readCountersClear, 0x0D, [0, 0, 64, 1]), (.readCountersClear, 0x0D, [4, 0, 6, 1])],
      (lockedAt x.2.1 x.2.2).standsAt (standing x.2.1 x.2.2) { code := x.2.1, args := x.2.2 } [] ∧
      ({ code := x.2.1, args := x.2.2 } : Cmd).formed x.2.1 ∧ rowTakes x.1 { code := x.2.1, args := x.2.2 } = true ∧
      (lockedAt x.2.1 x.2.2).session.state ≠ .closed ∧ (lockedAt x.2.1 x.2.2).session.owner ≠ some 7) ∧
    (paramValid 5 50 = true ∧ paramValid 5 49 = false ∧ paramValid 17 1 = true ∧ paramValid 18 2 = false ∧
      paramValid 21 0x3FFE = true ∧ paramValid 21 1 = false ∧ controlOf 0x82 ≠ none ∧ controlOf 3 = none ∧
      trunkPortOf 1 ≠ none ∧ trunkPortOf 3 = none) ∧
    (∀ x ∈ [((0x03 : Byte), 255 :: encodeEntry metering), (0x05, [63, 0]), (0x07, []), (0x08, []), (0x09, [])],
      (cmdAt x.1 x.2).standsAt (standing x.1 x.2) { code := x.1, args := x.2 } [] ∧
      ({ code := x.1, args := x.2 } : Cmd).formed x.1 ∧ (cmdAt x.1 x.2).session.state = .closed ∧
      (cmdAt x.1 x.2).session.swapRequested = false ∧ (lockedAt x.1 x.2).session.owner ≠ some 7 ∧
      (ownedAt x.1 x.2 .syncing).session.state = .syncing ∧ (ownedAt x.1 x.2 .syncing).session.owner = some 7) ∧
    decodeEntry (List.replicate 20 0xFF) = none ∧
    ({ code := 0x03, args := 0 :: List.replicate 20 0xFF } : Cmd).formed 0x03 ∧
    ({ code := 0x05, args := [64, 0] } : Cmd).formed 0x05 ∧ 63 < (64 : Byte).toNat := by
  unfold State.standsAt Cmd.formed; decide +kernel

/-- Station 7's INFO answered, its request at the head of M. -/
def answered : Execution :=
  { standing 0x01 [] with todo := [], done := [{ code := 0x01, result := .ok, data := List.replicate 15 0 }] }

/-- The node at that hand-over. -/
def handing : State := (requested [0x12, 0x34, 1, 0x01, 0]).setExecutor (.executing answered)

/-- The same with a cache. -/
def caching (x : List CacheEntry) : State := { handing with mgmt := { handing.mgmt with cache := x } }

/-- The same with no free record, the cached response of station 9 in record 8. -/
def crowded : State :=
  let s := (caching [{ requester := 9, id := 1, frame := 8 }]).setRecord 8
    { state := .waiting, source := .i, size := 10, pages := [101], arrival := 0, refs := 1 }
  { s with store := { s.store with freeRecs := [] } }

/-- Well-formed and malformed; with room and the cache empty, holding the requester's entry, or full; an eviction that frees no room and
one that does; with no free record; with none and no cache. -/
theorem witness_ResponseHandoverCaches :
    (∀ x ∈ [[], [({ requester := 7, id := 1, frame := 8 } : CacheEntry)],
        (List.range 8).map (fun i => { requester := BitVec.ofNat 8 (i + 10), id := 1, frame := i + 10 })],
      let s := caching x
      s.mgmt.executor = .executing answered ∧ s.mgmt.queue = { frame := 5, requester := 7 } :: [] ∧
      s.store.freeRecs = 0 :: [1, 2, 3] ∧ 1 ≤ s.store.freePages.length ∧ s.store.held.get .i + 1 ≤ s.quota .i ∧
      1 + Config.reserve ≤ s.store.freePages.length ∧ (5 : Nat) ≠ 0 ∧ s.store.freePages.Nodup) ∧
    (answered.todo = [] ∧ answered.reset = none ∧ answered.malformed = false ∧
      pagesNeeded (responsePayload answered.id false answered.done).length = 1) ∧
    (let e : Execution := { answered with malformed := true, count := 0, done := [] }
     (handing.setExecutor (.executing e)).mgmt.executor = .executing e ∧ e.todo = [] ∧ e.malformed = true) ∧
    (crowded.mgmt.executor = .executing answered ∧ crowded.store.freeRecs = [] ∧ crowded.lacksRoom 1 ∧
      crowded.mgmt.cache = { requester := 9, id := 1, frame := 8 } :: [] ∧ (crowded.record 8).refs = 1 ∧
      crowded.onBacklog 8 = false ∧ (crowded.record 8).state ≠ .filling ∧ 1 ≤ crowded.store.freePages.length ∧
      crowded.store.held.get .i + 1 ≤ crowded.quota .i ∧ crowded.roomy) ∧
    (let s := crowded.setRecord 8 { crowded.record 8 with state := .queued, refs := 2 }
     s.lacksRoom 1 ∧ s.mgmt.cache = { requester := 9, id := 1, frame := 8 } :: [] ∧ (s.record 8).refs = 0 + 2) ∧
    (let s : State := { handing with store := { handing.store with freeRecs := [] } }
     s.mgmt.executor = .executing answered ∧ s.mgmt.cache = [] ∧ s.lacksRoom 1 ∧ s.events.records.length < 32) := by
  unfold State.roomy State.lacksRoom; decide +kernel

/-- A command other than a reset; a hand-over whose response has a port, and one whose response has none; the watched response's
ACK, and its last byte. -/
theorem witness_PendingResetIsPerformed :
    (small.resetDue = false ∧ Outcome.isNext (exec .meterTick small) = true) ∧
    (let e : Execution := { answered with reset := some .full }
     let s := handing.setExecutor (.executing e)
     s.mgmt.executor = .executing e ∧ e.todo = [] ∧ s.store.freeRecs = 0 :: [1, 2, 3] ∧
     1 + 34 ≤ s.store.freePages.length ∧ s.store.held.get .i + 1 ≤ s.quota .i ∧
     pagesNeeded (responsePayload e.id e.malformed e.done).length = 1 ∧
     (numbered s).routeByDest e.requester = some .b ∧ (numbered s).canPlace .b 0 = true) ∧
    (∀ y, handing.routeByDest answered.requester = some y → handing.canPlace y 0 = false) ∧
    (let s := resetting .traffic (some (.a, flight.frame)) (withFlight (flying .awaitingAck (some 500)))
     s.mgmt.executor = .resetPending { scope := .traffic, watched := some (portOf .a, flight.frame) } ∧ s.roomy ∧
     (s.tx .a).inFlight = some flight ∧ (s.tx .a).state = .awaitingAck ∧ s.hearsPlainly .a) ∧
    (let s := resetting .full (some (.l, flight.frame)) ((withFlight .initial).setEgress (.transfer flight 11))
     s.mgmt.executor = .resetPending { scope := .full, watched := some (.l, flight.frame) } ∧ s.roomy ∧
     s.loc.egress = .transfer flight 11 ∧ (s.record flight.frame).size ≤ 11 + 1) := by
  refine ⟨⟨?_, rfl⟩, ?_, fun y h => ?_, ?_, ?_⟩
  · decide
  · decide +kernel
  · have none : handing.routeByDest answered.requester = none := by decide +kernel
    rw [none] at h
    cases h
  · unfold State.roomy State.hearsPlainly; decide +kernel
  · unfold State.roomy; decide +kernel

/-- The other ways the watched response leaves, at port A: a copy acknowledged; stale at its retry; a stale head before it and
itself stale at the selections; exhausted under DROP; stale at the UP event; at a link-down, acknowledged, or flushed behind a held
frame. And a response dropped. -/
theorem witness_PendingResetIsPerformed_leaves :
    (let s := resetting .full (some (.a, flight.frame)) (withFlight { flying .sending none with acked := true })
     s.roomy ∧ (s.tx .a).inFlight = some flight ∧ (s.tx .a).state = .sending ∧ (s.tx .a).acked = true) ∧
    (let s := resetting .full (some (.a, flight.frame)) (withFlight (flying .retryWait (some 100)))
     s.roomy ∧ (s.tx .a).inFlight = some flight ∧ (s.tx .a).state = .retryWait ∧ (s.tx .a).timer.isSome = true ∧
     ({ s with nodeTime := 501 } : State).stale flight.frame) ∧
    (let s : State := { resetting .traffic (some (.a, flight.frame)) (upA ((withFlight .initial).setQueues .a
        { c0 := [], c1 := [6], c2 := [5], c3 := [] })) with nodeTime := 501 }
     let t := resetting .traffic (some (.l, flight.frame)) (s.setQueues .l { c0 := [], c1 := [6], c2 := [5], c3 := [] })
     s.roomy ∧ (s.queues .a).entries = [{ cls := 1, frame := 6 }] ++ flight :: [] ∧ s.stale 6 ∧ s.stale flight.frame ∧
     (s.tx .a).state = .idle ∧ (s.tx .a).inFlight = none ∧ s.enabled .a = true ∧ (s.trunk .a).link.up = true ∧
     (t.queues .l).entries = [{ cls := 1, frame := 6 }] ++ flight :: [] ∧ t.roomy ∧ t.stale 6 ∧ t.stale flight.frame ∧
     t.loc.egress = .idle ∧ t.mgmt.executor = .resetPending { scope := .traffic, watched := some (.l, flight.frame) }) ∧
    (let s := resetting .full (some (.a, flight.frame)) (withFlight { flying .awaitingAck (some 500) with attempts := 7 })
     s.roomy ∧ s.events.records ≠ [] ∧ (s.tx .a).inFlight = some flight ∧ (s.tx .a).state = .awaitingAck ∧
     s.retryPolicy .a = .drop ∧ s.retryLimit .a ≤ (s.tx .a).attempts + 1 ∧ (s.tx .a).timer.isSome = true ∧
     s.hearsPlainly .a) ∧
    (let s : State := { resetting .full (some (.a, flight.frame)) (short (withFlight (flying .idle none))) with nodeTime := 501 }
     s.roomy ∧ s.events.records ≠ [] ∧ (s.tx .a).inFlight = some flight ∧ (s.tx .a).state = .idle ∧
     s.enabled .a = true ∧ (s.trunk .a).link.up = false ∧ (s.trunk .a).link.run + 1 = 64 ∧ s.stale flight.frame) ∧
    (let s := resetting .full (some (.a, flight.frame)) (upA (withFlight { flying .sending none with acked := true }))
     s.enabled .a = true ∧ (s.trunk .a).link.silence = true ∧ (s.trunk .a).link.up = true ∧ (s.tx .a).sound = true ∧
     s.roomy ∧ s.events.records ≠ [] ∧ (s.trunk .a).rx.reception = .waitSof ∧ (s.tx .a).inFlight = some flight ∧
     (s.tx .a).leavesAtDown s.params.linkDownPolicy = true) ∧
    (let x : Entry := { cls := 0, frame := 6 }
     let s : State := { (upA (withFlight (flying .held none))).setQueues .a { c0 := [6], c1 := [], c2 := [5], c3 := [] } with
       params := { Params.initial with linkDownPolicy := .flush } }
     (s.tx .a).sound = true ∧ s.params.linkDownPolicy = .flush ∧ x ∈ (s.trunk .a).queues.entries ∧
     ¬((s.tx .a).state = .held ∧ (s.tx .a).inFlight = some x)) ∧
    (let e : Execution := { answered with reset := some .full }
     let s : State := { handing.setExecutor (.executing e) with params := { Params.initial with quotaI := 0 } }
     s.mgmt.executor = .executing e ∧ e.todo = [] ∧ s.mgmt.cache = [] ∧
     s.lacksRoom (pagesNeeded (responsePayload e.id e.malformed e.done).length) ∧ s.roomy ∧ s.events.records ≠ []) := by
  refine ⟨?_, ?_, ?_, ?_, ?_, ?_, ?_, ?_⟩ <;> try unfold State.roomy
  all_goals try unfold State.stale
  all_goals try unfold State.hearsPlainly
  all_goals try unfold State.lacksRoom
  all_goals decide +kernel

/-! ### Witnesses: the local port -/

/-- Nine header bytes taken from the local device, and the tenth to come. -/
def offering (h : Header) : State := small.setIngress (.header ((encodeHeader h).take 9))

/-- The tenth byte: each refusal, the wait for room, and both grants, each at a boundary of its range. -/
theorem witness_LocalIngressTakesBytes :
    (small.loc.ingress = .idle ∧ small.resetPending = false) ∧ (List.replicate 8 (0 : Byte)).length < 9 ∧
    (∀ h ∈ [dataHeader 4 9, { dataHeader 4 9 with length := 1024 }, { dataHeader 4 9 with length := 1025 },
        { dataHeader 4 9 with kind := 4 }, { dataHeader 4 9 with kind := 15 }, { dataHeader 4 9 with zeros := 1 }],
      (offering h).loc.ingress = .header ((encodeHeader h).take 9) ∧ ((encodeHeader h).take 9).length = 9 ∧
      parseHeader ((encodeHeader h).take 9 ++ [0]) = h) ∧
    (kindOf 15 = none ∧ (1 : BitVec 5) ≠ 0 ∧ 1025 ≤ (1025 : BitVec 11).toNat ∧ kindOf 4 = some .enum ∧
      kindOf 1 = some .data ∧ (1024 : BitVec 11).toNat ≤ 1024 ∧ FrameKind.data ≠ .mreq) ∧
    ((offering (dataHeader 4 9)).numbering = .unnumbered ∧
      (numbered (offering (dataHeader 4 9))).numbering = .numbered 4 .a ∧
      ¬(false = true ↔ (0 : BitVec 11).toNat = 0) ∧ (true = true ↔ (0 : BitVec 11).toNat = 0) ∧
      (false = true ↔ (1024 : BitVec 11).toNat = 0)) ∧
    (resetting .full none (numbered (offering (dataHeader 4 9)))).resetPending = true ∧
    pagesNeeded 0 = 1 ∧ pagesNeeded 1024 = 17 ∧
    (let s := numbered (offering { dataHeader 4 9 with length := 1024 })
     s.resetPending = false ∧ s.store.freeRecs = 0 :: [1, 2, 3] ∧ 17 + 34 ≤ s.store.freePages.length ∧
     s.store.held.get .l + 17 ≤ s.quota .l ∧ 17 ≤ s.quota .l ∧
     ({ s with params := { s.params with quotaL := 16 } } : State).quota .l < 17 ∧
     ({ s with store := { s.store with freePages := List.range 50 } } : State).store.freePages.length < 17 + 34) ∧
    (let s := ((small.setIngress (.payload 5 63 64)).setRecord 5
        { state := .filling, source := .l, size := 74, pages := [63, 9], arrival := 0, refs := 0 })
     s.loc.ingress = .payload 5 63 64 ∧ 10 + 63 < (s.record 5).size ∧ (s.record 5).addr (10 + 63) = some (9 * 64 + 9) ∧
     63 + 1 = 64 ∧ 62 + 1 < 64 ∧ s.roomy ∧ (false = true ↔ 63 + 1 < 64) ∧ (true = true ↔ 62 + 1 < 64)) ∧
    (small.setIngress .discard).loc.ingress = .discard ∧
    (small.setIngress (.waitRoom [] 0)).loc.ingress = .waitRoom [] 0 := by
  unfold State.roomy; decide +kernel

/-- A prepared local header of Length 54, waiting for room. -/
def waiting (s : State) : State := s.setIngress (.waitRoom (encodeHeader { dataHeader 4 9 with length := 54 }) 1)

/-- Clause by clause of R178's table: one page of payload or none, granted; no room; a quota of 0; a reset pending. -/
theorem witness_LocalAdmissionRetryAsks :
    (∀ x ∈ [(54, false), (0, true)],
      let h := encodeHeader { dataHeader 4 9 with length := BitVec.ofNat 11 x.1 }
      let s := small.setIngress (.waitRoom h (0 + 1))
      s.loc.ingress = .waitRoom h (0 + 1) ∧ s.resetPending = false ∧ (parseHeader h).length.toNat = x.1 ∧
      pagesNeeded x.1 = 1 ∧ 1 ≤ s.quota .l ∧ s.store.freeRecs = 0 :: [1, 2, 3] ∧ 1 + 34 ≤ s.store.freePages.length ∧
      s.store.held.get .l + 1 ≤ s.quota .l ∧ h.length = 10 ∧
      ({ s with params := { s.params with quotaL := 0 } } : State).quota .l < 1 ∧
      (resetting .traffic none s).resetPending = true) ∧
    (waiting { small with store := { small.store with freePages := List.range 34 } }).store.freePages.length < 1 + 34 := by
  decide +kernel

theorem witness_LocalEgressTransfers :
    (let s := { (withFlight .initial).setQueues .l { c0 := [], c1 := [], c2 := [5], c3 := [] } with nodeTime := 500 }
     s.resetDue = false ∧ s.loc.egress = .idle ∧ s.loc.queues.entries = flight :: [] ∧
     (s.nodeTime - (s.record flight.frame).arrival).toNat ≤ s.params.residenceLimit) ∧
    (let s := (withFlight .initial).setEgress (.transfer flight 10)
     s.resetDue = false ∧ s.loc.egress = .transfer flight 10 ∧ 10 + 1 < (s.record flight.frame).size) ∧
    (let s := (withFlight .initial).setEgress (.transfer flight 11)
     s.loc.egress = .transfer flight 11 ∧ (s.record flight.frame).size ≤ 11 + 1 ∧ s.roomy ∧ s.resetDue = false ∧
     s.watches .l flight.frame = false) ∧
    (∀ refs ∈ [1, 2],
      let x : Entry := { cls := 2, frame := 6 }
      let s : State := { ((withFlight .initial).setQueues .l { c0 := [], c1 := [], c2 := [5, 6], c3 := [] }).setRecord 6
        { state := .queued, source := .i, size := 12, pages := [101], arrival := 1, refs := 1 } with nodeTime := 501 }
      let s := s.setRecord 5 { s.record 5 with refs := refs }
      s.loc.egress = .idle ∧ s.loc.queues.entries = [flight] ++ [x] ∧ s.stale flight.frame ∧ ¬s.stale x.frame ∧
      s.watches .l flight.frame = false ∧ s.roomy ∧ s.resetDue = false ∧ ([flight].map Entry.frame).Nodup ∧
      (s.record flight.frame).refs = refs ∧ s.onBacklog flight.frame = false ∧
      (s.record flight.frame).state ≠ .filling) ∧
    (small.setEgress (.aborting 9)).loc.egress = .aborting 9 := by
  unfold State.roomy State.stale; decide +kernel

/-! ### Witnesses: layouts and the store -/

theorem witness_TableEntriesAndHeadersRoundTrip : fieldsBad { dataHeader 4 9 with length := 1024 } = false := by decide

/-- The reset store after an admission of one page: record 255 and page 1023 are held. -/
def oneHeld : State :=
  { State.reset with
    store :=
      { State.reset.store with
        freePages := List.range 1023, freeRecs := List.range 255
        recs := [(255, { state := .filling, source := .a, size := 10, pages := [1023], arrival := 0, refs := 0 })] } }

/-- Any such store has record 255 in use, its free list as it should be, and its pages balanced. -/
theorem oneHeld_books (s : State) (hf : s.store.freeRecs = List.range 255) (hp : s.store.freePages = List.range 1023)
    (hr : (s.record 255).pages = [1023]) :
    s.usedRecords = [255] ∧ (s.store.freeRecs.Nodup ∧ ∀ r ∈ s.store.freeRecs, r < 256) ∧ s.pagesBalanced := by
  have recs : List.range Config.recordCount = List.range 255 ++ [255] := List.range_succ
  have pages : List.range Config.pageCount = List.range 1023 ++ [1023] := List.range_succ
  have used : (List.range Config.recordCount).filter (fun r => !s.store.freeRecs.contains r) = [255] := by
    rw [recs, List.filter_append, List.filter_eq_nil_iff.mpr fun r hr => by simpa [hf] using hr]
    simp [hf]
  refine ⟨used, ?_, ?_⟩
  · rw [hf]
    exact ⟨List.nodup_range, fun r h => Nat.lt_trans (List.mem_range.mp h) (by decide)⟩
  · unfold State.pagesBalanced
    rw [used, pages, hp]
    simp [hr]

/-- An admission of each kind of source at its last page, and one that fails; a response that leaves 33 pages; a transfer whose last
byte brings back the fifty-first page, and one that brings back the fiftieth. -/
theorem witness_AdmissionReleaseAndWatermark_store :
    (let s : State := { small with store := { small.store with freePages := List.range 35 } }
     s.store.freeRecs = 0 :: [1, 2, 3] ∧ 1 + 34 ≤ s.store.freePages.length ∧ s.store.held.get .a + 1 ≤ s.quota .a ∧
     s.store.freePages.length < 2 + 34 ∧ 2 + 0 ≤ s.store.freePages.length ∧ s.store.held.get .i + 2 ≤ s.quota .i) ∧
    (let s : State := { handing with store := { handing.store with freePages := List.range 34 } }
     s.mgmt.executor = .executing answered ∧ answered.todo = [] ∧ answered.reset = none ∧
     pagesNeeded (responsePayload answered.id answered.malformed answered.done).length = 1 ∧
     s.store.freeRecs = 0 :: [1, 2, 3] ∧ s.store.watermark = .armed ∧ s.store.freePages.length < 1 + 34 ∧
     s.store.held.get .i + 1 ≤ s.quota .i ∧ s.events.records ≠ [] ∧ s.events.records.length < 32) ∧
    (∀ n ∈ [49, 50],
      let s : State := { (withFlight .initial).setEgress (.transfer flight 11) with
        store := { (withFlight .initial).store with freePages := List.range n, watermark := .low } }
      s.loc.egress = .transfer flight 11 ∧ (s.record flight.frame).size ≤ 11 + 1 ∧ (s.record flight.frame).refs = 1 ∧
      s.onBacklog flight.frame = false ∧ (s.record flight.frame).state ≠ .filling ∧ s.store.watermark = .low ∧
      s.resetPending = false) := by decide +kernel

/-- Placements: a queue one short of its depth and one at it, a DOWN link under KEEP and under FLUSH. -/
theorem witness_PlacementsAndInternalRoute :
    (let s := small.setQueues .a { c0 := List.range 63, c1 := List.range 64, c2 := [], c3 := [] }
     ((s.queues .a).get 0).length < s.params.queueDepthA ∧ ¬((s.queues .a).get 1).length < s.params.queueDepthA ∧
     s.params.linkDownPolicy = .keep ∧ (s.trunk .a).link.up = false) ∧
    ({ small with params := { Params.initial with linkDownPolicy := .flush } } : State).canPlace .a 0 = false ∧
    (numbered small).numbering = .numbered 4 .a ∧ small.numbering = .unnumbered := by decide +kernel

theorem witness_AdmissionReleaseAndWatermark :
    oneHeld.pagesBalanced ∧ oneHeld.store.freeRecs.Nodup ∧ (∀ r ∈ oneHeld.store.freeRecs, r < 256) ∧
    (oneHeld.takeRoom .a 0).isSome = true ∧ 255 < 256 ∧ 255 ∉ oneHeld.store.freeRecs := by
  obtain ⟨-, free, pages⟩ := oneHeld_books oneHeld (by simp [oneHeld]) (by simp [oneHeld]) (by decide)
  exact ⟨pages, free.1, free.2, by decide +kernel, by decide, by simp [oneHeld]⟩

/-- The reset store after the admission of one frame without payload at port A, whose header the receiver has taken. -/
def oneFilling : State :=
  let f : RxFrame := { RxFrame.start with header := List.replicate 10 0, frame := some 255 }
  { oneHeld with
    trunkA := { State.reset.trunkA with rx := { reception := .check f, lastSeq := none, answers := [] } }
    store := { oneHeld.store with held := { a := 1, b := 0, l := 0, i := 0 } }
    pending := [.meterTick] }

/-- A store with a frame in it that keeps its books, and a step from it. -/
theorem witness_StepKeepsFrameStoreSound :
    oneFilling.StoreSound ∧ oneFilling.receiversSound = true ∧ Outcome.isNext (step oneFilling) = true := by
  obtain ⟨used, free, pages⟩ := oneHeld_books oneFilling (by simp [oneFilling, oneHeld]) (by simp [oneFilling, oneHeld]) (by decide)
  have holders : ∀ r, oneFilling.holders r = 0 := fun r => rfl
  refine ⟨{ pages := ?_, free := ?_, held := ?_, size := ?_, refs := ?_, placed := ?_, state := ?_, unheld := ?_
            single := ?_, flight := ?_, transfer := ?_ }, by decide, rfl⟩
  · exact pages
  · exact free
  · intro src
    rw [used]
    cases src <;> decide +kernel
  · rw [used]
    decide +kernel
  · rw [used]
    intro r hr
    rw [holders]
    revert r
    decide +kernel
  · rw [used]
    decide +kernel
  · rw [used]
    decide +kernel
  · rw [used]
    exact fun r hr => ⟨rfl, hr, List.not_mem_nil⟩
  · intro q
    cases q <;> decide
  · intro p e h
    cases p <;> cases h
  · intro e k h
    cases h

end Sys2Proof.Tests
end

section
/-! READ_METER of the request in execution (R112): what its own checks give, and what taking it answers. -/

namespace Sys2Proof.Machine

/-! ### A failing command, whatever the response already holds (R150) -/

theorem hasCode_of_formed {c : Cmd} {code : Byte} (h : c.formed code) : hasCode code c = true := by
  simp [hasCode, h.1]

/-- A command's own checks come before the response-size check, so their failure needs no room in the response: beside
`runCommand_fail`, the command has only to be well formed. -/
theorem runCommand_fail_of_formed {s : State} {e : Execution} {c : Cmd} {rest : List Cmd} {takes : Cmd → Bool}
    {body : Call → State → Verdict} {code : Byte} {r : CmdResult} (h : s.standsAt e c rest) (hf : c.formed code)
    (ht : takes c = true)
    (hb : body { requester := e.requester, args := c.args, isLast := rest.isEmpty } s = .fail r) :
    runCommand takes body s = s.answerCmd e c rest r [] none := by
  obtain ⟨hcode, hlen⟩ := hf
  simp [runCommand, h.current, ht, verdictOf, hcode, hlen, hb]

/-! ### READ_METER's own checks (R112) -/

theorem exec_readMeter (s : State) : exec .readMeter s = .next (runCommand (hasCode 0x0B) bodyReadMeter s) := rfl

theorem bodyReadMeter_badValue (s : State) (q : Station) (last : Bool) (index count : Byte)
    (h : count = 0 ∨ 8 < count.toNat) :
    bodyReadMeter { requester := q, args := [index, count], isLast := last } s = .fail .badValue :=
  if_pos (h.imp_left (congrArg BitVec.toNat))

theorem bodyReadMeter_inRange (s : State) (q : Station) (last : Bool) (index count : Byte)
    (h0 : count ≠ 0) (h8 : count.toNat ≤ 8) :
    bodyReadMeter { requester := q, args := [index, count], isLast := last } s =
      if 32 < index.toNat + count.toNat then .fail .badIndex
      else reads ((List.range count.toNat).flatMap (fun i => meterBytes (s.meter (index.toNat + i)))) s :=
  if_neg (not_or.mpr ⟨fun h => h0 (BitVec.eq_of_toNat_eq h), h8.not_gt⟩)

/-- Settles O34: the outcomes of READ_METER's own checks, each carried through the taking of the command. -/
theorem readMeterAnswers : Obligations.ReadMeterAnswers := by
  intro s e c rest index count hs hargs hf
  have ht : hasCode 0x0B c = true := hasCode_of_formed hf
  refine ⟨fun hbad => ?badValue, fun h0 h8 hpast => ?badIndex, fun h0 h8 hin hroom => ?ok⟩
  case badValue =>
    rw [exec_readMeter, runCommand_fail_of_formed hs hf ht]
    rw [hargs, bodyReadMeter_badValue s _ _ index count hbad]
  case badIndex =>
    rw [exec_readMeter, runCommand_fail_of_formed hs hf ht]
    rw [hargs, bodyReadMeter_inRange s _ _ index count h0 h8, if_pos hpast]
  case ok =>
    have hlen : ((List.range count.toNat).flatMap (fun i => meterBytes (s.meter (index.toNat + i)))).length =
        11 * count.toNat := by
      rw [length_flatMap_const _ 11 (fun _ => meterBytes_length _), List.length_range]
    rw [exec_readMeter, runCommand_pass hs hroom ht ?_ hlen.le]
    rw [hargs, bodyReadMeter_inRange s _ _ index count h0 h8, if_neg hin.not_gt, reads]

end Sys2Proof.Machine
end

section
/-! INFO and EDIT_STATUS of the request in execution (R143, R153): the bytes each returns, and that a command which only
reads is answered with them on the state it met. -/

namespace Sys2Proof.Machine

/-! ### A command that only reads -/

/-- A well-formed command whose body reads `data`, which fit, is answered OK with them, and nothing but the answer is
recorded: `runCommand_pass` with the state unchanged and no reset. The requester stands nowhere in it. -/
theorem runCommand_reads {s : State} {e : Execution} {c : Cmd} {rest : List Cmd} {body : Call → State → Verdict}
    {code : Byte} {n : Nat} {data : List Byte} (h : s.standsAt e c rest) (ha : e.admits c code n)
    (hb : ∀ call, body call s = reads data s) (hd : data.length = n) :
    runCommand (hasCode code) body s = s.answerCmd e c rest .ok data none :=
  runCommand_pass h ha (hasCode_of_admits ha) (hb _) hd.le

/-! ### INFO's bytes (R103, R153) -/

/-- Own station, the orientation's code and whether the node is NUMBERED, as INFO returns them: all 0 while UNNUMBERED. -/
def numberingBytes : Numbering → List Byte
  | .unnumbered => [0, 0, 0]
  | .numbered own .a => [own, 1, 1]
  | .numbered own .b => [own, 2, 1]

theorem numberingBytes_eq (n : Numbering) :
    numberingBytes n = [n.own.getD 0, orientationCode n, if n.isNumbered then 1 else 0] := by
  cases n with
  | unnumbered => rfl
  | numbered own o => cases o <;> rfl

@[simp] theorem numberingBytes_length (n : Numbering) : (numberingBytes n).length = 3 := by
  rw [numberingBytes_eq]; rfl

/-- INFO's data, in the order in which R103 lays them out. -/
def infoBytes (s : State) : List Byte :=
  [0x0A, 0x31, 0x24, 0x16, 0x01] ++ numberingBytes s.numbering ++ beBytes 4 s.nodeTime.toNat ++
    beBytes 2 s.steer.generation.toNat ++ [sessionCode s.session.state]

theorem infoBytes_length (s : State) : (infoBytes s).length = 15 := by simp [infoBytes]

theorem bodyInfo_eq (call : Call) (s : State) : bodyInfo call s = reads (infoBytes s) s := by
  rw [infoBytes, numberingBytes_eq, beBytes_two]
  rfl

theorem exec_info (s : State) : exec .info s = .next (runCommand (hasCode 0x01) bodyInfo s) := rfl

/-! ### EDIT_STATUS's bytes (R103, R143) -/

/-- EDIT_STATUS's data: the session's state, its owner (0 while CLOSED) and the sync cursor. -/
def editStatusBytes (s : State) : List Byte :=
  [sessionCode s.session.state, if s.session.state = .closed then 0 else s.session.owner.getD 0] ++
    beBytes 2 s.session.cursor

theorem editStatusBytes_length (s : State) : (editStatusBytes s).length = 4 := by simp [editStatusBytes]

theorem bodyEditStatus_eq (call : Call) (s : State) : bodyEditStatus call s = reads (editStatusBytes s) s := rfl

theorem exec_editStatus (s : State) :
    exec .editStatus s = .next (runCommand (hasCode 0x0A) bodyEditStatus s) := rfl

/-- Settles O43: each of the two commands only reads, and its bytes are the ones stated. -/
theorem infoAndEditStatusAnswer : Obligations.InfoAndEditStatusAnswer := by
  intro s e c rest hs
  refine ⟨fun hroom => ?info, fun hroom => ?editStatus⟩
  case info =>
    rw [exec_info, runCommand_reads hs hroom (bodyInfo_eq · s) (infoBytes_length s)]
    rfl
  case editStatus =>
    rw [exec_editStatus, runCommand_reads hs hroom (bodyEditStatus_eq · s) (editStatusBytes_length s)]
    rfl

end Sys2Proof.Machine
end

section
/-! READ_PARAM of the request in execution (R155): which parameter numbers hold a value, and what taking the command
answers for a number with one and for a number without. -/

namespace Sys2Proof.Machine

/-! ### The parameter numbers (R155) -/

/-- The numbers without a parameter are exactly those outside 1 to 21: each of the 21 rows holds a value, and a number that
meets none of them is 0 or above 21. -/
theorem paramValue_eq_none_iff (q : Params) (n : Nat) : paramValue q n = none ↔ n = 0 ∨ 21 < n := by
  unfold paramValue
  split
  case h_22 => exact iff_of_true rfl (by grind)
  all_goals exact iff_of_false (Option.some_ne_none _) (by decide)

theorem exists_paramValue {n : Nat} (q : Params) (h0 : n ≠ 0) (h21 : n ≤ 21) : ∃ v, paramValue q n = some v :=
  Option.ne_none_iff_exists'.mp fun h => (paramValue_eq_none_iff q n).mp h |>.elim h0 h21.not_gt

/-! ### READ_PARAM's own check (R155) -/

theorem exec_readParam (s : State) : exec .readParam s = .next (runCommand (hasCode 0x0E) bodyReadParam s) := rfl

theorem bodyReadParam_badIndex {s : State} {call : Call} (h : paramValue s.params (call.arg 0).toNat = none) :
    bodyReadParam call s = .fail .badIndex := by
  simp [bodyReadParam, h]

theorem bodyReadParam_reads {s : State} {call : Call} {v : Half}
    (h : paramValue s.params (call.arg 0).toNat = some v) : bodyReadParam call s = reads (halfBytes v) s := by
  simp [bodyReadParam, h]

/-- Settles O44: a number outside 1 to 21 fails READ_PARAM's own check, which comes before the response-size check; any
other number has a value, and its two bytes are what the command reads. -/
theorem readParamAnswers : Obligations.ReadParamAnswers := by
  intro s e c rest n hs hargs hf
  have ht : hasCode 0x0E c = true := hasCode_of_formed hf
  have harg : ({ requester := e.requester, args := c.args, isLast := rest.isEmpty } : Call).arg 0 = n := by
    rw [hargs]; rfl
  refine ⟨fun hout => ?badIndex, fun h0 h21 hroom => ?ok⟩
  case badIndex =>
    have hnone : paramValue s.params n.toNat = none :=
      (paramValue_eq_none_iff _ _).mpr (hout.imp_left (congrArg BitVec.toNat))
    rw [exec_readParam, runCommand_fail_of_formed hs hf ht (bodyReadParam_badIndex (harg ▸ hnone))]
  case ok =>
    obtain ⟨v, hv⟩ := exists_paramValue s.params (fun h => h0 (BitVec.eq_of_toNat_eq h)) h21
    refine ⟨v, hv, ?_⟩
    rw [exec_readParam, runCommand_pass hs hroom ht (bodyReadParam_reads (harg ▸ hv)) (halfBytes_length v).le]

end Sys2Proof.Machine
end

section
/-! The footprint of an operation: which parts of the node it may change, and that it keeps the canonical form, the event
queue, the transmitters and the receptions sound. Every command is taken apart into such operations once, here. -/

namespace Sys2Proof.Machine

/-! ### Parts of the node -/

/-- The parts of the node that a footprint is made of. -/
inductive Part where
  | nodeTime
  | meters
  | counters
  | params
  | numbering
  | enums
  | steer
  | active
  | session
  | requests
  | cache
  | current
  | mgmt
  | rx (p : TrunkPort)
  | tx (p : TrunkPort)
  | link (p : TrunkPort)
  | egress
  | mem
  | pending
  deriving DecidableEq

/-- A part is the same in two states. The management engine is meant while no reset is pending, and otherwise whether a full one
is; the pages' bytes while no monitor station is set, whose notices any event may write. -/
def Part.same (s t : State) : Part → Prop
  | .nodeTime => t.nodeTime = s.nodeTime
  | .meters => t.meters = s.meters
  | .counters => t.counters = s.counters
  | .params => t.params = s.params
  | .numbering => t.numbering = s.numbering
  | .enums => t.enums = s.enums
  | .steer => t.steer = s.steer
  | .active =>
    t.activeBank = s.activeBank ∧ t.steer.selector = s.steer.selector ∧ t.steer.generation = s.steer.generation
  | .session => t.session = s.session
  | .requests => t.mgmt.queue = s.mgmt.queue
  | .cache => t.mgmt.cache = s.mgmt.cache
  | .current => t.current = s.current
  | .mgmt => (s.resetPending = false → t.mgmt = s.mgmt) ∧ t.fullResetPending = s.fullResetPending
  | .rx p => (t.trunk p).rx = (s.trunk p).rx
  | .tx p => t.tx p = s.tx p
  | .link p => (t.trunk p).link = (s.trunk p).link
  | .egress => t.loc.egress = s.loc.egress
  | .mem => s.params.monitorStation = none → t.params.monitorStation = none ∧ t.store.mem = s.store.mem
  | .pending => t.pending = s.pending

variable {s t u : State} {F : List Part}

theorem Part.same_refl (s : State) (x : Part) : x.same s s := by
  cases x <;> simp [Part.same]

theorem Part.same_trans {x : Part} (h : x.same s t) (g : x.same t u) : x.same s u := by
  cases x
  case active => exact ⟨g.1.trans h.1, g.2.1.trans h.2.1, g.2.2.trans h.2.2⟩
  case mgmt =>
    refine ⟨fun hp => ?_, g.2.trans h.2⟩
    have hm := h.1 hp
    exact (g.1 ((State.resetPending_of_mgmt s hm).trans hp)).trans hm
  case mem =>
    intro hn
    obtain ⟨hp, hm⟩ := h hn
    exact ⟨(g hp).1, (g hp).2.trans hm⟩
  all_goals exact Eq.trans g h

/-! ### Quiet operations -/

/-- An operation of the store, of the event queue or of an egress queue: calm, keeping tables and event queue sound, and
leaving the management engine at the command it stood at. -/
structure Quiet (s t : State) : Prop where
  calm : Calm s t
  wf : s.store.wf → t.store.wf
  events : EventsKept s t
  current : t.current = s.current
  mgmt : (s.resetPending = false → t.mgmt = s.mgmt) ∧ t.fullResetPending = s.fullResetPending

/-- A quiet operation that writes no byte of a page but for a notice. -/
structure Still (s t : State) : Prop extends Quiet s t where
  mem : s.params.monitorStation = none → t.store.mem = s.store.mem

theorem State.current_of_mgmt (h : t.mgmt = s.mgmt) : t.current = s.current := by
  simp [State.current, h]

theorem State.fullResetPending_of_mgmt (h : t.mgmt = s.mgmt) : t.fullResetPending = s.fullResetPending := by
  simp [State.fullResetPending, h]

theorem Quiet.of_mgmt (hc : Calm s t) (hw : s.store.wf → t.store.wf) (he : EventsKept s t) (hm : t.mgmt = s.mgmt) :
    Quiet s t := 
  ⟨hc, hw, he, State.current_of_mgmt hm, fun _ => hm, State.fullResetPending_of_mgmt hm⟩

theorem Quiet.trans (h : Quiet s t) (g : Quiet t u) : Quiet s u where
  calm := h.calm.trans g.calm
  wf k := g.wf (h.wf k)
  events := h.events.trans g.events
  current := g.current.trans h.current
  mgmt := Part.same_trans (x := .mgmt) h.mgmt g.mgmt

theorem Still.trans (h : Still s t) (g : Still t u) : Still s u :=
  ⟨h.toQuiet.trans g.toQuiet, fun hn => (g.mem (by rw [h.calm.params]; exact hn)).trans (h.mem hn)⟩

/-- A calm operation that leaves tables, pages, event queue and management engine alone is still. -/
theorem Still.of_eq (hc : Calm s t) (hs : t.store = s.store) (he : t.events = s.events) (hm : t.mgmt = s.mgmt) :
    Still s t :=
  ⟨.of_mgmt hc (fun h => hs ▸ h) (.of_eq s he hc.params) hm, fun _ => by rw [hs]⟩

theorem Still.refl (s : State) : Still s s := .of_eq (.refl s) rfl rfl rfl

theorem Still.foldl {α : Type} (f : State → α → State) (hf : ∀ u a, Still u (f u a)) (l : List α) (s : State) :
    Still s (l.foldl f s) := by
  induction l generalizing s with
  | nil => exact .refl s
  | cons a l ih => exact (hf s a).trans (ih (f s a))

variable (s)

theorem State.still_setRecord (r : Nat) (f : FrameRecord) : Still s (s.setRecord r f) :=
  ⟨.of_mgmt (s.calm_setRecord r f) (fun h => s.storeWf_setRecord h r f) (.of_eq s rfl rfl) rfl, fun _ => rfl⟩

theorem State.still_setIngress (x : Ingress) : Still s (s.setIngress x) :=
  .of_eq (s.calm_setIngress x) rfl rfl rfl

theorem State.still_raiseTrunk (p : TrunkPort) (k : TrunkStat) : Still s (s.raiseTrunk p k) :=
  .of_eq (s.calm_raiseTrunk p k) (by simp) (by simp) (by simp)

theorem State.still_raiseLocal (k : LocalStat) : Still s (s.raiseLocal k) :=
  .of_eq (s.calm_raiseLocal k) rfl rfl rfl

theorem State.append_store (k : EventKind) (p : Option Port) (d : Option Half) : (s.append k p d).store = s.store := by
  unfold State.append; split <;> rfl

theorem State.append_params (k : EventKind) (p : Option Port) (d : Option Half) : (s.append k p d).params = s.params :=
  (s.calm_append k p d).params

/-- With no monitor station an event is appended and sends no notice (R172). -/
theorem State.raiseEvent_unmonitored (h : s.params.monitorStation = none) (k : EventKind) (p : Option Port)
    (d : Option Half) : s.raiseEvent k p d = s.append k p d :=
  State.raiseEvent_unannounced k p d (by simp [State.noticeDue, s.append_params, h])

theorem State.still_raiseEvent (k : EventKind) (p : Option Port) (d : Option Half) : Still s (s.raiseEvent k p d) :=
  ⟨.of_mgmt (s.calm_raiseEvent k p d) (fun h => s.storeWf_raiseEvent h k p d) (s.eventsKept_raiseEvent k p d)
    (s.raiseEvent_mgmt k p d), fun h => by rw [s.raiseEvent_unmonitored h, s.append_store]⟩

theorem State.still_examine : Still s s.examine := by
  refine ⟨.of_mgmt s.calm_examine s.storeWf_examine s.eventsKept_examine s.examine_mgmt, fun h => ?_⟩
  unfold State.examine
  split <;> split
  · exact (State.still_raiseEvent (s.setWatermark .low) .storeLow none none).mem h
  all_goals rfl

theorem State.announce_store : s.announce.store = s.store := by
  unfold State.announce
  split
  · split <;> rfl
  · rfl

theorem State.still_announce : Still s s.announce :=
  .of_eq s.calm_announce s.announce_store s.announce_events s.announce_mgmt

theorem State.still_release (r : Nat) : Still s (s.release r) := by
  have h : Still s (s.returnRoom r) :=
    ⟨.of_mgmt (s.calm_returnRoom r) id (.of_eq s rfl rfl) rfl, fun _ => rfl⟩
  exact (h.trans (State.still_examine _)).trans (State.still_announce _)

theorem State.still_dropRef (r : Nat) : Still s (s.dropRef r) := by
  unfold State.dropRef; split
  · exact .refl s
  · dsimp only; split
    · exact (s.still_setRecord r _).trans (State.still_release _ r)
    · exact s.still_setRecord r _

theorem State.still_setQueues (q : Port) (x : QueueSet) : Still s (s.setQueues q x) :=
  .of_eq (s.calm_setQueues q x) (by simp) (by simp) (by simp)

theorem State.unwatch_store (q : Port) (r : Nat) : (s.unwatch q r).store = s.store := by
  unfold State.unwatch; split <;> [(split <;> rfl); rfl]

theorem State.unwatch_current (q : Port) (r : Nat) : (s.unwatch q r).current = s.current := by
  unfold State.unwatch
  split
  · next w hw =>
    split
    · simp [State.current, hw]
    · rfl
  · rfl

theorem State.unwatch_fullResetPending (q : Port) (r : Nat) :
    (s.unwatch q r).fullResetPending = s.fullResetPending := by
  unfold State.unwatch
  split
  · next w hw =>
    split
    · simp [State.fullResetPending, hw]
    · rfl
  · rfl

theorem State.still_unwatch (q : Port) (r : Nat) : Still s (s.unwatch q r) where
  calm := s.calm_unwatch q r
  wf h := s.storeWf_unwatch h q r
  events := .of_eq s (s.unwatch_events q r) (s.calm_unwatch q r).params
  current := s.unwatch_current q r
  mgmt := ⟨fun h => by rw [s.unwatch_of_not_pending h], s.unwatch_fullResetPending q r⟩
  mem _ := by rw [s.unwatch_store]

theorem State.still_removeEntry (q : Port) (e : Entry) : Still s (s.removeEntry q e) :=
  ((s.still_setQueues q _).trans (State.still_unwatch _ q _)).trans (State.still_dropRef _ _)

theorem State.still_removeEntries (q : Port) (f : Entry → Bool) : Still s (s.removeEntries q f) :=
  Still.foldl _ (fun u e => u.still_removeEntry q e) _ s

theorem State.still_releaseUnheld (r : Nat) : Still s (s.releaseUnheld r) := by
  unfold State.releaseUnheld; split
  · exact s.still_release r
  · exact .refl s

theorem State.still_abandon (r : Option Nat) : Still s (s.abandon r) := by
  cases r
  · exact .refl s
  · exact s.still_release _

theorem State.still_finishPlacement (r : Nat) : Still s (s.finishPlacement r) := by
  unfold State.finishPlacement; split
  · exact s.still_release r
  · exact s.still_setRecord r _

theorem State.still_raiseSkip (q : Port) : Still s (s.raiseSkip q) := by
  cases q
  · exact s.still_raiseTrunk .a _
  · exact s.still_raiseTrunk .b _
  · exact s.still_raiseLocal _

theorem State.still_enqueue (q : Port) (c : TrafficClass) (r : Nat) : Still s (s.enqueue q c r) :=
  (s.still_setQueues q _).trans (State.still_setRecord _ r _)

theorem State.still_place (q : Port) (c : TrafficClass) (r : Nat) : Still s (s.place q c r) := by
  unfold State.place; split
  · exact s.still_enqueue q c r
  · exact s.still_raiseSkip q

theorem State.still_placeByDest (d : Station) (r : Nat) : Still s (s.placeByDest d r) := by
  unfold State.placeByDest; split
  · exact s.still_place _ 0 r
  · exact .refl s

theorem State.still_askRoom {src : Source} {len r : Nat} (h : s.askRoom src len = .granted r t) : Still s t := by
  refine ⟨.of_mgmt (s.calm_askRoom h) (fun k => s.storeWf_askRoom k h) (s.eventsKept_askRoom h) (s.askRoom_mgmt h),
    fun hn => ?_⟩
  unfold State.askRoom at h
  split at h
  · next x hx =>
    cases h
    rw [(State.still_examine _).mem (by rw [(s.calm_takeRoom hx).params]; exact hn)]
    unfold State.takeRoom at hx
    split at hx
    · cases hx
    · split at hx <;> cases hx
      rfl
  · cases h

theorem State.quiet_writeFrameByte (r i : Nat) (b : Byte) : Quiet s (s.writeFrameByte r i b) :=
  .of_mgmt (s.calm_writeFrameByte r i b) (fun h => s.storeWf_writeFrameByte h r i b)
    (.of_eq s (s.writeFrameByte_events r i b) (s.calm_writeFrameByte r i b).params) (s.writeFrameByte_mgmt r i b)

theorem State.quiet_fill (r : Nat) (l : List Byte) (i : Nat) : Quiet s (s.fill r i l) :=
  .of_mgmt (s.calm_fill r l i) (fun h => s.storeWf_fill h r l i)
    (.of_eq s (s.fill_events r l i) (s.calm_fill r l i).params) (s.fill_mgmt r l i)

theorem State.quiet_storeSteered (r : Nat) (h : Header) : Quiet s (s.storeSteered r h) :=
  (((s.quiet_writeFrameByte r 0 _).trans (State.quiet_writeFrameByte _ r 1 _)).trans
    (State.quiet_writeFrameByte _ r 4 _)).trans (State.quiet_writeFrameByte _ r 5 _)

theorem State.quiet_sendNumbering (p : TrunkPort) (h : Header) (l : List Byte) : Quiet s (s.sendNumbering p h l) := by
  unfold State.sendNumbering; split
  · exact (Still.refl s).toQuiet
  · next ha =>
    exact (((s.still_askRoom ha).toQuiet.trans (State.quiet_fill _ _ _ _)).trans
      (State.still_place _ _ _ _).toQuiet).trans (State.still_releaseUnheld _ _).toQuiet

/-! ### Work within a footprint -/

/-- The canonical form, part by part. -/
theorem State.canonical_iff : s.canonical = true ↔ s.store.wf ∧
    (Sparse.wf SteerEntry.blank s.steer.bank0.table = true ∧ Sparse.wf MapEntry.blank s.steer.bank0.map = true ∧
      Sparse.wf SteerEntry.blank s.steer.bank1.table = true ∧ Sparse.wf MapEntry.blank s.steer.bank1.map = true) ∧
    Sparse.wf Meter.blank s.meters = true ∧ Sparse.wf EntryCounter.blank s.counters = true := by
  simp only [State.canonical, Bool.and_eq_true, Store.wf]
  tauto

variable {s}

/-- The promises about the whole node that hold even within an operation. Those about transmitters, links and the session
are not among them: they are broken and mended inside one command. -/
inductive Promise where
  | canonical
  | events
  | meters
  | banks
  | numbering
  | requests
  | cache
  | receivers

/-- Whether a state keeps a promise. -/
def Promise.holds (s : State) : Promise → Bool
  | .canonical => s.canonical
  | .events => s.eventsSound
  | .meters => s.metersSound
  | .banks => s.banksSound
  | .numbering => s.numberingSound
  | .requests => s.requestsSound
  | .cache => s.cacheSound
  | .receivers => s.receiversSound

/-- An operation that changes no part outside `F` and keeps every promise. -/
structure Touches (F : List Part) (s t : State) : Prop where
  same : ∀ x, x ∉ F → x.same s t
  keeps : ∀ x : Promise, x.holds s = true → x.holds t = true

/-- One that keeps the transmitters sound as well. Within a transmitter's own work they need not be. -/
structure Work (F : List Part) (s t : State) : Prop extends Touches F s t where
  tx : ∀ p, (s.tx p).sound = true → (t.tx p).sound = true

theorem Touches.trans (h : Touches F s t) (g : Touches F t u) : Touches F s u where
  same x hx := Part.same_trans (x := x) (h.same x hx) (g.same x hx)
  keeps x k := g.keeps x (h.keeps x k)

theorem Work.trans (h : Work F s t) (g : Work F t u) : Work F s u :=
  ⟨h.toTouches.trans g.toTouches, fun p k => g.tx p (h.tx p k)⟩

theorem Touches.mono {G : List Part} (h : Touches F s t) (hs : F ⊆ G) : Touches G s t :=
  { h with same := fun x hx => h.same x (fun hf => hx (hs hf)) }

theorem Work.mono {G : List Part} (h : Work F s t) (hs : F ⊆ G) : Work G s t := ⟨h.toTouches.mono hs, h.tx⟩

theorem Work.refl (F : List Part) (s : State) : Work F s s :=
  ⟨⟨fun x _ => Part.same_refl s x, fun _ => id⟩, fun _ => id⟩

theorem Work.foldl {α : Type} (f : State → α → State) (hf : ∀ u a, Work F u (f u a)) (l : List α) (s : State) :
    Work F s (l.foldl f s) := by
  induction l generalizing s with
  | nil => exact .refl F s
  | cons a l ih => exact (hf s a).trans (ih (f s a))

/-- What a calm operation leaves the same, the pages and the management engine apart. -/
theorem Calm.same (h : Calm s t) (x : Part) (hm : x ≠ .mem) (hg : x ≠ .mgmt) (hc : x ≠ .current) : x.same s t := by
  cases x
  case mem => exact absurd rfl hm
  case mgmt => exact absurd rfl hg
  case current => exact absurd rfl hc
  case nodeTime => exact h.nodeTime
  case meters => exact h.meters
  case counters => exact h.counters
  case params => exact h.params
  case numbering => exact h.numbering
  case enums => exact h.enums
  case steer => exact h.steer
  case active => simp [Part.same, State.activeBank, h.steer]
  case session => exact h.session
  case requests => exact h.requests
  case cache => exact h.cache
  case rx p => exact h.rx p
  case tx p => exact h.tx p
  case link p => exact h.link p
  case egress => exact h.egress
  case pending => exact h.pending

theorem Quiet.keeps (h : Quiet s t) (x : Promise) (k : x.holds s = true) : x.holds t = true := by
  cases x
  case canonical =>
    refine (State.canonical_iff t).mpr ?_
    have k := (State.canonical_iff s).mp k
    rw [h.calm.steer, h.calm.meters, h.calm.counters]
    exact ⟨h.wf k.1, k.2⟩
  case events => exact h.events.sound k
  case meters => simpa [Promise.holds, State.metersSound, h.calm.meters] using k
  case banks => simpa [Promise.holds, State.banksSound, h.calm.steer] using k
  case numbering => simpa only [Promise.holds, State.numberingSound, h.calm.numbering] using k
  case requests => simpa [Promise.holds, State.requestsSound, h.calm.requests] using k
  case cache => simpa [Promise.holds, State.cacheSound, h.calm.cache] using k
  case receivers =>
    have ha : t.trunkA.rx = s.trunkA.rx := h.calm.rx .a
    have hb : t.trunkB.rx = s.trunkB.rx := h.calm.rx .b
    simpa [Promise.holds, State.receiversSound, ha, hb] using k

theorem Quiet.work (h : Quiet s t) (hm : .mem ∈ F) : Work F s t where
  same x hx := by
    by_cases hg : x = .mgmt
    · rw [hg]; exact h.mgmt
    · by_cases hc : x = .current
      · rw [hc]; exact h.current
      · exact h.calm.same x (fun e => hx (e ▸ hm)) hg hc
  keeps := h.keeps
  tx p k := by rw [State.tx_eq, h.calm.tx p]; exact k

theorem Still.work (h : Still s t) : Work F s t := by
  have w := h.toQuiet.work (F := [.mem]) (by simp)
  refine ⟨⟨fun x _ => ?_, w.keeps⟩, w.tx⟩
  by_cases hm : x = .mem
  · rw [hm]; exact fun hn => ⟨h.calm.params ▸ hn, h.mem hn⟩
  · exact w.same x (by simpa using hm)

/-! ### The parts of a trunk port -/

theorem State.tx_setTrunk (s : State) (p q : TrunkPort) (x : Trunk) :
    (s.setTrunk p x).tx q = if q = p then x.tx else s.tx q := by
  rw [State.tx_eq, State.trunk_setTrunk]; split <;> rfl

/-- Replacing a trunk port touches its receiver, transmitter and link, and no other part. -/
theorem Part.same_setTrunk (s : State) (p : TrunkPort) (x : Trunk) (y : Part)
    (hr : y = .rx p → x.rx = (s.trunk p).rx) (ht : y = .tx p → x.tx = (s.trunk p).tx)
    (hl : y = .link p → x.link = (s.trunk p).link) : y.same s (s.setTrunk p x) := by
  cases y
  case rx q => simp only [Part.same, State.trunk_setTrunk]; split <;> simp_all
  case tx q => simp only [Part.same, State.tx_setTrunk]; split <;> simp_all [State.tx_eq]
  case link q => simp only [Part.same, State.trunk_setTrunk]; split <;> simp_all
  case mem => exact fun hn => ⟨by simpa using hn, by simp⟩
  all_goals simp [Part.same, State.activeBank, State.current, State.fullResetPending]

theorem State.receiversSound_iff (s : State) :
    s.receiversSound = true ↔ ∀ p, (s.trunk p).rx.reception.sound = true := by
  rw [State.receiversSound, Bool.and_eq_true]
  exact ⟨fun h p => by cases p <;> [exact h.1; exact h.2], fun h => ⟨h .a, h .b⟩⟩

/-- Replacing a trunk port keeps every promise where the reception stays sound. -/
theorem Promise.keeps_setTrunk (s : State) (p : TrunkPort) (x : Trunk)
    (hx : (s.trunk p).rx.reception.sound = true → x.rx.reception.sound = true) (y : Promise) (h : y.holds s = true) :
    y.holds (s.setTrunk p x) = true := by
  cases y
  case receivers =>
    have h := s.receiversSound_iff.mp h
    refine (State.receiversSound_iff _).mpr fun q => ?_
    rw [State.trunk_setTrunk]
    split
    · exact hx (h p)
    · exact h q
  all_goals cases p <;> exact h

theorem Touches.onTx (s : State) (p : TrunkPort) (f : Transmitter → Transmitter) : Touches [.tx p] s (s.onTx p f) where
  same y hy := Part.same_setTrunk s p _ y (fun _ => rfl) (fun h => absurd (by simp [h]) hy) (fun _ => rfl)
  keeps := Promise.keeps_setTrunk s p _ id

/-- Replacing what of a trunk port is no transmitter. -/
theorem Work.setTrunk (s : State) (p : TrunkPort) (x : Trunk) (hr : .rx p ∈ F ∨ x.rx = (s.trunk p).rx)
    (hl : .link p ∈ F ∨ x.link = (s.trunk p).link) (ht : x.tx = (s.trunk p).tx)
    (hx : (s.trunk p).rx.reception.sound = true → x.rx.reception.sound = true) : Work F s (s.setTrunk p x) where
  same y hy := Part.same_setTrunk s p _ y (fun h => hr.resolve_left (h ▸ hy)) (fun _ => ht)
    (fun h => hl.resolve_left (h ▸ hy))
  keeps := Promise.keeps_setTrunk s p x hx
  tx q h := by
    rw [State.tx_setTrunk]; split
    · next hq => rw [ht]; exact hq ▸ h
    · exact h

theorem Work.onLink (s : State) (p : TrunkPort) (f : Link → Link) : Work [.link p] s (s.onLink p f) :=
  .setTrunk s p _ (.inr rfl) (.inl (by simp)) rfl id

theorem Work.onRx (s : State) (p : TrunkPort) (f : Receiver → Receiver)
    (hf : (s.trunk p).rx.reception.sound = true → (f (s.trunk p).rx).reception.sound = true) :
    Work [.rx p] s (s.onRx p f) :=
  .setTrunk s p _ (.inl (by simp)) (.inr rfl) rfl hf

end Sys2Proof.Machine

end

section
/-! The footprints of the operations of the trunk ports: transmitter, receiver and link. -/

namespace Sys2Proof.Machine

variable {s t u : State} {F : List Part} {p : TrunkPort}

/-! ### The transmitter -/

/-- A transmitter's work leaves the other port's transmitter alone. -/
theorem TxWork.tx_other {x : Transmitter} {q : TrunkPort} (h : TxWork p x s t) (hq : q ≠ p) : t.tx q = s.tx q := by
  have := h.1.tx q
  rwa [State.onTx_eq, State.trunk_setTrunk, if_neg hq] at this

/-- What touches only a part set and keeps its port's transmitter sound is work within it. -/
theorem Touches.work (h : Touches F s t) (k : TxKept p s t) : Work F s t := by
  refine ⟨h, fun q hq => ?_⟩
  obtain ⟨x, hx, hs⟩ := k
  by_cases e : q = p
  · subst e; rw [hx.tx_eq]; exact hs hq
  · rw [hx.tx_other e]; exact hq

theorem Touches.leaveFlight (s : State) (p : TrunkPort) : Touches [.tx p] s (s.leaveFlight p) := by
  unfold State.leaveFlight
  split
  · exact .onTx s p _
  · exact (Touches.onTx s p _).trans (State.still_removeEntry _ _ _).work.toTouches

theorem Work.leaveFlight (s : State) (p : TrunkPort) : Work [.tx p] s (s.leaveFlight p) :=
  (Touches.leaveFlight s p).work (.leaveFlight s p)

theorem Touches.startCopy (s : State) (p : TrunkPort) : Touches [.tx p] s (s.startCopy p) :=
  (s.still_raiseTrunk p _).work.toTouches.trans (.onTx _ p _)

theorem Work.startCopy (s : State) (p : TrunkPort) (h : (s.tx p).inFlight.isSome = true) :
    Work [.tx p] s (s.startCopy p) := (Touches.startCopy s p).work (.startCopy s p h)

theorem Work.discardFlight (s : State) (p : TrunkPort) : Work [.tx p] s (s.discardFlight p) :=
  (s.still_raiseTrunk p _).work.trans (.leaveFlight _ p)

theorem Work.retransmit (s : State) (p : TrunkPort) : Work [.tx p] s (s.retransmit p) := by
  unfold State.retransmit
  split
  · exact .refl _ s
  · next e h =>
    split
    · exact .startCopy s p (by simp [h])
    · exact .discardFlight s p

theorem Work.resume (s : State) (p : TrunkPort) : Work [.tx p] s (s.resume p) := by
  unfold State.resume; split
  · exact .retransmit s p
  · exact .refl _ s

theorem Work.suspend (s : State) (p : TrunkPort) : Work [.tx p] s (s.suspend p) := by
  refine Touches.work ?_ (.suspend s p)
  unfold State.suspend
  split
  · exact (Work.refl _ s).toTouches
  · exact (Work.refl _ s).toTouches
  · split
    · exact .leaveFlight s p
    · exact .onTx s p _
  all_goals exact .onTx s p _

theorem Work.flushDown (s : State) (p : TrunkPort) : Work [.tx p] s (s.flushDown p) := by
  refine Touches.work ?_ (.flushDown s p)
  unfold State.flushDown
  split
  · dsimp only; split
    · exact (s.still_removeEntries _ _).work.toTouches
    · exact (s.still_removeEntries _ _).work.toTouches.trans (.onTx _ p _)
  · exact (Work.refl _ s).toTouches

theorem Touches.exhaust (s : State) (p : TrunkPort) : Touches [.tx p] s (s.exhaust p) := by
  have r := (s.still_raiseTrunk p .retryExhaustions).work (F := [.tx p]) |>.toTouches
  have e := fun (u : State) k q d => (u.still_raiseEvent k q d).work (F := [.tx p]) |>.toTouches
  unfold State.exhaust
  dsimp only
  split
  · exact r.trans (.onTx _ p _)
  · exact (r.trans (.leaveFlight _ p)).trans (e _ _ _ _)
  · exact ((r.trans (.onTx _ p _)).trans (e _ _ _ _)).trans (e _ _ _ _)

theorem Work.failAttempt (s : State) (p : TrunkPort) (h : (s.tx p).state = .awaitingAck) :
    Work [.tx p] s (s.failAttempt p) := by
  refine Touches.work ?_ (.failAttempt s p h)
  unfold State.failAttempt
  dsimp only
  split
  · exact .onTx s p _
  · exact (Touches.onTx s p _).trans (.exhaust _ p)

theorem Work.takeAck (s : State) (p : TrunkPort) (q : LinkSeq) : Work [.tx p] s (s.takeAck p q) := by
  have stray := (s.still_raiseTrunk p .strayAcks).work (F := [.tx p]) |>.toTouches
  refine Touches.work ?_ (.takeAck s p q)
  unfold State.takeAck
  split
  · split
    · split
      · exact .leaveFlight s p
      · exact stray
    · split
      · exact stray
      · exact .onTx s p _
    · exact .leaveFlight s p
    · exact .leaveFlight s p
    · exact stray
  · exact stray

theorem Work.takeNak (s : State) (p : TrunkPort) (q : LinkSeq) (why : NakReason) :
    Work [.tx p] s (s.takeNak p q why) := by
  refine Touches.work ?_ (.takeNak s p q why)
  unfold State.takeNak
  split
  · next h =>
    split
    · exact (Work.failAttempt s p h.2).toTouches
    · exact .onTx s p _
  · exact (s.still_raiseTrunk p .strayAcks).work.toTouches

theorem Work.select (s : State) (p : TrunkPort) (n : Nat) : Work [.tx p] s (s.select p n) := by
  refine Touches.work ?_ (.select s p n)
  induction n generalizing s with
  | zero => exact (Work.refl _ s).toTouches
  | succ n ih =>
    unfold State.select
    split
    · exact (Work.refl _ s).toTouches
    · next e _ =>
      split
      · exact (Touches.onTx s p _).trans (.startCopy _ p)
      · have k : Touches [.tx p] s ((s.raiseTrunk p .residenceDiscards).removeEntry (portOf p) e) :=
          ((s.still_raiseTrunk p _).trans (State.still_removeEntry _ _ e)).work.toTouches
        dsimp only
        split
        · exact k
        · exact k.trans (ih _)

/-- A change of the line's record alone (log 8). -/
theorem Work.lineOut (s : State) (p : TrunkPort) (l : List Symbol) :
    Work F s (s.onTrunk p (fun t => { t with lineOut := l })) := .setTrunk s p _ (.inr rfl) (.inr rfl) rfl id

theorem Work.endCopy (s : State) (p : TrunkPort) : Work [.tx p] s (s.endCopy p) := by
  unfold State.endCopy
  split
  · exact .refl _ s
  · next e he =>
    have l := Work.lineOut (F := [.tx p]) s p (copySymbols (s.frameBytes e.frame) (s.tx p).txSeq)
    dsimp only
    split
    · exact l.trans (.leaveFlight _ p)
    · next ha =>
      refine Work.trans (t := s.onTrunk p (fun t => { t with lineOut := copySymbols (s.frameBytes e.frame) t.tx.txSeq }))
        l ((Touches.onTx _ p _).work (.onTx _ p _ fun _ => ?_))
      simp only [State.onTrunk_eq, State.tx_setTrunk, if_pos]
      rw [← State.tx_eq]
      simp [Transmitter.sound, he, ha]

/-! ### The receiver -/

theorem Work.setReception (s : State) (p : TrunkPort) (x : Reception)
    (h : (s.trunk p).rx.reception.sound = true → x.sound = true) : Work [.rx p] s (s.setReception p x) :=
  .onRx s p _ h

theorem Work.answer (s : State) (p : TrunkPort) (a : Answer) : Work [.rx p] s (s.answer p a) := .onRx s p _ id

theorem Work.headerBad (s : State) (p : TrunkPort) : Work [.rx p] s (s.headerBad p) :=
  (Work.setReception s p .waitSof fun _ => rfl).trans (State.still_raiseTrunk _ p _).work

theorem Work.checkFailed (s : State) (p : TrunkPort) (f : RxFrame) : Work [.rx p] s (s.checkFailed p f) :=
  (((Work.setReception s p .waitSof fun _ => rfl).trans (.answer _ p _)).trans (State.still_abandon _ _).work).trans
    (State.still_raiseTrunk _ p _).work

theorem Work.takeSof (s : State) (p : TrunkPort) : Work [.rx p] s (s.takeSof p) := by
  have start := fun u : State => Work.setReception u p (.header .start) fun _ => rfl
  unfold State.takeSof
  split
  · exact start s
  · exact (Work.headerBad s p).trans (start _)
  · exact (Work.checkFailed s p _).trans (start _)
  · exact (Work.checkFailed s p _).trans (start _)

/-- A frame whose tenth header byte has been taken, admitted or refused, is a sound reception. -/
theorem bodyState_sound {f : RxFrame} (hh : f.header.length = 10) (hf : f.frame.isSome = !f.refused) (ha : f.after = 0)
    (hc : f.checkBytes = []) : (bodyState f).sound = true := by
  unfold bodyState
  split
  · next hl => simp [Reception.sound, RxFrame.admitted, hh, hf, ha, hc, hl]
  · next hl => simp [Reception.sound, RxFrame.admitted, hh, hf, ha, hc]; omega

theorem Work.judgeHeader (s : State) (p : TrunkPort) (f : RxFrame) (hh : (s.trunk p).rx.reception.sound = true →
      f.header.length = 10 ∧ f.frame = none ∧ f.refused = false ∧ f.after = 0 ∧ f.checkBytes = []) :
    Work [.rx p, .mem] s (s.judgeHeader p f) := by
  have refuse : Work [.rx p, .mem] s (s.setReception p (bodyState
      { f with seq := (parseHeader f.header).seq, length := (parseHeader f.header).length.toNat, refused := true })) :=
    (Work.setReception s p _ fun k => by
      obtain ⟨h1, h2, -, h4, h5⟩ := hh k
      exact bodyState_sound h1 (by simp [h2]) h4 h5).mono (by simp)
  unfold State.judgeHeader
  dsimp only
  split
  · exact (Work.headerBad s p).mono (by simp)
  · split
    · exact refuse
    · split
      · next r s1 ha =>
        have w : Work [.rx p, .mem] s (s1.fill r 0 f.header) :=
          ((s.still_askRoom ha).toQuiet.trans (State.quiet_fill _ _ _ _)).work (by simp)
        have hr : ((s1.fill r 0 f.header).trunk p).rx = (s.trunk p).rx :=
          ((s.still_askRoom ha).toQuiet.trans (State.quiet_fill s1 r f.header 0)).calm.rx p
        refine w.trans ((Work.setReception _ p _ fun k => ?_).mono (by simp))
        obtain ⟨h1, -, h3, h4, h5⟩ := hh (hr ▸ k)
        exact bodyState_sound h1 (by simp [h3]) h4 h5
      · exact refuse

theorem Work.takeData (s : State) (p : TrunkPort) (b : Byte) : Work [.rx p, .mem] s (s.takeData p b) := by
  unfold State.takeData
  split
  · exact .refl _ s
  · next f hx =>
    dsimp only
    split
    · next hl =>
      refine (Work.setReception s p _ fun k => ?_).mono (by simp)
      simp only [hx, Reception.sound, Bool.and_eq_true] at k ⊢
      exact ⟨⟨⟨⟨decide_eq_true hl, k.1.1.1.2⟩, k.1.1.2⟩, k.1.2⟩, k.2⟩
    · next hl =>
      refine Work.judgeHeader s p _ fun k => ?_
      simp [hx, Reception.sound] at k hl ⊢
      obtain ⟨⟨⟨⟨k1, k2⟩, k3⟩, k4⟩, k5⟩ := k
      exact ⟨by omega, k2, k3, k4, k5⟩
  · next f hx =>
    dsimp only
    have w : Work [.rx p, .mem] s (s.writeBody f.frame (10 + f.after) b) := by
      unfold State.writeBody; split
      · exact (s.quiet_writeFrameByte _ _ _).work (by simp)
      · exact .refl _ s
    have hr : ((s.writeBody f.frame (10 + f.after) b).trunk p).rx = (s.trunk p).rx := by
      unfold State.writeBody; split
      · exact (s.calm_writeFrameByte _ _ _).rx p
      · rfl
    refine w.trans ((Work.setReception _ p _ fun k => ?_).mono (by simp))
    rw [hr, hx] at k
    simp only [Reception.sound, RxFrame.admitted, Bool.and_eq_true, decide_eq_true_eq] at k
    obtain ⟨⟨k1, k2⟩, k3⟩ := k
    split
    · next hl => simp [Reception.sound, RxFrame.admitted, k1, k3, hl]
    · next hl =>
      rw [List.isEmpty_iff] at k3
      simp [Reception.sound, RxFrame.admitted, k1, k3] at hl ⊢; omega
  · next f hx =>
    split
    · next hl =>
      refine (Work.setReception s p _ fun k => ?_).mono (by simp)
      simp [hx, Reception.sound, RxFrame.admitted] at k ⊢
      exact ⟨⟨k.1.1, by omega⟩, by omega⟩
    · exact (Work.checkFailed s p f).mono (by simp)

/-- A backlog replaced: the tables and the selector stay. -/
theorem Work.setBacklog (s : State) (q : Port) (x : List Nat) : Work [.steer] s (s.setBacklog q x) := by
  refine ⟨⟨fun y hy => ?_, fun y h => ?_⟩, fun p h => ?_⟩
  · cases y
    case steer => simp at hy
    case active => cases q <;> exact ⟨rfl, rfl, rfl⟩
    case mem => exact fun hn => ⟨by simpa using hn, by simp⟩
    all_goals cases q <;> first | rfl | exact ⟨fun _ => rfl, rfl⟩
  · cases y <;> cases q <;> exact h
  · cases q <;> exact h

theorem Work.storeFrame (s : State) (p : TrunkPort) (f : RxFrame) (r : Nat) :
    Work [.rx p, .steer] s (s.storeFrame p f r) := by
  unfold State.storeFrame
  have backlog := fun (u : State) x => (Work.setBacklog u (portOf p) x).mono (G := [.rx p, .steer]) (by simp)
  have done := fun u : State => (Work.onRx u p (fun x => { x with reception := .waitSof, lastSeq := some f.seq })
    fun _ => rfl).mono (G := [.rx p, .steer]) (by simp)
  have ack := fun u : State => (Work.answer u p (.ack f.seq)).mono (G := [.rx p, .steer]) (by simp)
  exact ((((s.still_setRecord r _).work.trans (backlog _ _)).trans (done _)).trans (ack _)).trans
    (State.still_raiseTrunk _ p _).work

theorem Work.takeEof (s : State) (p : TrunkPort) : Work [.rx p, .steer] s (s.takeEof p) := by
  have failed := fun f => (Work.checkFailed s p f).mono (G := [.rx p, .steer]) (by simp)
  have ended := fun a => (Work.setReception s p .waitSof fun _ => rfl).trans (.answer _ p a)
  unfold State.takeEof
  split
  · exact .refl _ s
  · exact (Work.headerBad s p).mono (by simp)
  · exact failed _
  · split
    · exact failed _
    · unfold State.dispose
      split
      · exact failed _
      · split
        · exact (((ended _).trans (State.still_abandon _ _).work).trans (State.still_raiseTrunk _ p _).work).mono (by simp)
        · split
          · exact .storeFrame s p _ _
          · exact ((ended _).trans (State.still_raiseTrunk _ p _).work).mono (by simp)

theorem Work.takeError (s : State) (p : TrunkPort) : Work [.rx p] s (s.takeError p) := by
  unfold State.takeError
  split
  · exact .refl _ s
  · exact .headerBad s p
  · next hx => exact .setReception s p _ fun k => by rw [hx] at k; exact k
  · next hx => exact .setReception s p _ fun k => by rw [hx] at k; exact k

theorem Work.takeHello (s : State) (p : TrunkPort) : Work [.rx p] s (s.takeHello p) := .onRx s p _ id

theorem Work.loseFrame (s : State) (p : TrunkPort) : Work [.rx p] s (s.loseFrame p) := by
  have lost := Work.onRx s p (fun x => { x with reception := .waitSof }) fun _ => rfl
  unfold State.loseFrame
  dsimp only
  split
  · exact .refl _ s
  · exact lost.trans (State.still_raiseTrunk _ p _).work
  all_goals exact (lost.trans (State.still_abandon _ _).work).trans (State.still_raiseTrunk _ p _).work

theorem Work.disableRx (s : State) (p : TrunkPort) : Work [.rx p] s (s.disableRx p) :=
  (Work.onRx s p _ fun _ => rfl).trans (State.still_abandon _ _).work

theorem Work.sendAnswer (s : State) (p : TrunkPort) : Work [.rx p] s (s.sendAnswer p) := by
  unfold State.sendAnswer
  split
  · next a _ =>
    have sent := Work.lineOut (F := [.rx p]) s p [answerSymbol a]
    have taken := Work.onRx (s.onTrunk p (fun t => { t with lineOut := [answerSymbol a] })) p
      (fun x => { x with answers := x.answers.drop 1 }) id
    have e : s.onTrunk p (fun t =>
        { t with lineOut := [answerSymbol a], rx := { t.rx with answers := t.rx.answers.drop 1 } }) =
        (s.onTrunk p (fun t => { t with lineOut := [answerSymbol a] })).onRx p
          (fun x => { x with answers := x.answers.drop 1 }) := by cases p <;> rfl
    exact e ▸ sent.trans taken
  · exact .refl _ s

/-! ### The link -/

theorem Work.chosen (s : State) : Work F s s.chosen := by
  refine ⟨⟨fun x _ => ?_, fun y h => by cases y <;> exact h⟩, fun _ => id⟩
  cases x
  case mem => exact fun hn => ⟨hn, rfl⟩
  case active => exact ⟨rfl, rfl, rfl⟩
  all_goals first | rfl | exact ⟨fun _ => rfl, rfl⟩

theorem Work.linkUp (s : State) (p : TrunkPort) : Work [.link p, .tx p] s (s.linkUp p) := by
  have up : Work [.link p, .tx p] s ((s.onLink p (fun l => { l with up := true })).chosen) :=
    ((Work.onLink s p _).trans (.chosen _)).mono (by simp)
  have resume := fun u : State => (Work.resume u p).mono (G := [.link p, .tx p]) (by simp)
  unfold State.linkUp
  dsimp only
  split
  · exact (up.trans (State.still_raiseEvent _ _ _ _).work).trans (resume _)
  · exact (up.trans (resume _)).trans (State.still_raiseEvent _ _ _ _).work

theorem Work.linkDown (s : State) (p : TrunkPort) (b : Bool) (rx : State → State)
    (h : ∀ u, Work [.rx p] u (rx u)) : Work [.link p, .tx p, .rx p] s (s.linkDown p b rx) := by
  have down : Work [.link p, .tx p, .rx p] s
      ((s.onLink p (fun l => { l with up := false, run := 0, silence := b })).chosen) :=
    ((Work.onLink s p _).trans (.chosen _)).mono (by simp)
  have blocks : ∀ u : State, Work [.link p, .tx p, .rx p] u (((rx u).suspend p).flushDown p) := fun u =>
    (((h u).mono (by simp)).trans ((Work.suspend _ p).mono (by simp))).trans ((Work.flushDown _ p).mono (by simp))
  unfold State.linkDown
  dsimp only
  split
  · exact (down.trans (State.still_raiseEvent _ _ _ _).work).trans (blocks _)
  · exact (down.trans (blocks _)).trans (State.still_raiseEvent _ _ _ _).work

theorem Work.hear (s : State) (p : TrunkPort) (f : State → State) (h : ∀ u, Work F u (f u)) :
    Work (.link p :: .tx p :: F) s (s.hear p f) := by
  have heard : Work (.link p :: .tx p :: F) s (s.onLink p Link.heard) := (Work.onLink s p _).mono (by simp)
  have taken := fun u => (h u).mono (G := .link p :: .tx p :: F) (by intro x hx; simp [hx])
  have up := fun u => (Work.linkUp u p).mono (G := .link p :: .tx p :: F) (by simp)
  rcases s.hear_cases p f with e | e | e | e <;> rw [e]
  · exact .refl _ s
  · exact heard.trans (taken _)
  · exact ((heard.trans (.chosen _)).trans (up _)).trans (taken _)
  · exact ((heard.trans (.chosen _)).trans (taken _)).trans (up _)

theorem Work.hearError (s : State) (p : TrunkPort) : Work [.link p, .rx p] s (s.hearError p (fun t => t.takeError p)) := by
  unfold State.hearError
  split
  · exact ((Work.onLink s p _).mono (by simp)).trans ((Work.takeError _ p).mono (by simp))
  · exact .refl _ s

theorem Work.silence (s : State) (p : TrunkPort) : Work [.link p, .tx p, .rx p] s (s.silence p) := by
  unfold State.silence
  split
  · split
    · exact .linkDown s p true _ fun u => .loseFrame u p
    · exact (Work.onLink s p _).mono (by simp)
  · exact .refl _ s

theorem Work.switchOff (s : State) (p : TrunkPort) : Work [.link p, .tx p, .rx p] s (s.switchOff p) := by
  unfold State.switchOff
  split
  · exact .linkDown s p false _ fun u => .disableRx u p
  · exact ((Work.onLink s p _).mono (by simp)).trans ((Work.disableRx _ p).mono (by simp))

theorem Work.switchOn (s : State) (p : TrunkPort) : Work [.link p, .tx p, .rx p] s (s.switchOn p) :=
  (Work.onLink s p _).mono (by simp)

end Sys2Proof.Machine

end

section
/-! The footprints of the operations of the local port, of steering, numbering and management, and of the resets. -/

namespace Sys2Proof.Machine

variable {s t u : State} {F : List Part}

/-! ### Sparse tables whose entries all keep a promise -/

theorem Sparse.all_erase {α : Type} (P : α → Bool) (l : Sparse α) (i : Nat) (h : l.all (fun e => P e.2) = true) :
    (Sparse.erase l i).all (fun e => P e.2) = true :=
  List.all_eq_true.mpr fun e he => List.all_eq_true.mp h e (List.mem_of_mem_filter he)

theorem Sparse.all_set {α : Type} [DecidableEq α] (P : α → Bool) (d : α) (l : Sparse α) (i : Nat) (v : α)
    (h : l.all (fun e => P e.2) = true) (hv : P v = true) : (Sparse.set d l i v).all (fun e => P e.2) = true := by
  have hr := Sparse.all_erase P l i h
  unfold Sparse.set
  split
  · exact hr
  · refine List.all_eq_true.mpr fun e he => ?_
    rcases Sparse.mem_insert he with rfl | he
    · exact hv
    · exact List.all_eq_true.mp hr e he

theorem Sparse.all_mapValues {α : Type} [DecidableEq α] (P : α → Bool) (d : α) (f : α → α)
    (hf : ∀ v, P v = true → P (f v) = true) (l : Sparse α) (h : l.all (fun e => P e.2) = true) :
    (Sparse.mapValues d f l).all (fun e => P e.2) = true := by
  refine List.all_eq_true.mpr fun e he => ?_
  obtain ⟨x, hx, rfl⟩ := List.mem_map.mp (List.mem_of_mem_filter he)
  exact hf _ (List.all_eq_true.mp h x hx)

theorem Sparse.get_all {α : Type} (P : α → Bool) (d : α) (l : Sparse α) (i : Nat) (hd : P d = true)
    (h : l.all (fun e => P e.2) = true) : P (Sparse.get d l i) = true := by
  induction l with
  | nil => exact hd
  | cons e l ih =>
    obtain ⟨k, v⟩ := e
    rw [List.all_cons, Bool.and_eq_true] at h
    rw [Sparse.get_cons]
    split
    · exact h.1
    · exact ih h.2

/-- The level of a meter is within its burst (R106). -/
def Meter.level_le (m : Meter) : Bool := decide (m.level ≤ m.burst)

theorem State.meter_level_le (s : State) (h : s.metersSound = true) (i : Nat) : (s.meter i).level_le = true :=
  Sparse.get_all Meter.level_le _ _ i rfl h

theorem Meter.charge_level_le (m : Meter) (n : Nat) (h : m.level_le = true) : (m.charge n).1.level_le = true := by
  simp only [Meter.level_le, decide_eq_true_eq] at h ⊢
  unfold Meter.charge
  split
  · exact h
  · split
    · exact (Nat.sub_le _ _).trans h
    · exact h

theorem Meter.tick_level_le (m : Meter) (h : m.level_le = true) : m.tick.level_le = true := by
  simp only [Meter.level_le, decide_eq_true_eq] at h ⊢
  unfold Meter.tick
  split
  · exact Nat.min_le_left _ _
  · exact h

/-- Bit 0 of the generation after the swap is the other one. -/
theorem bankOfGeneration_succ (g : Half) : bankOfGeneration (g + 1) = otherBank (bankOfGeneration g) := by
  have h : (g + 1).getLsbD 0 = !g.getLsbD 0 := by
    rw [BitVec.getLsbD_add (by decide)]
    simp
  unfold bankOfGeneration
  rw [h]
  cases g.getLsbD 0 <;> rfl

/-- What keeps a state canonical where the pages stay. -/
theorem State.canonical_of_store (s t : State) (hst : t.store = s.store) (h : s.canonical = true)
    (ht : (Sparse.wf SteerEntry.blank t.steer.bank0.table = true ∧ Sparse.wf MapEntry.blank t.steer.bank0.map = true ∧
      Sparse.wf SteerEntry.blank t.steer.bank1.table = true ∧ Sparse.wf MapEntry.blank t.steer.bank1.map = true) ∧
      Sparse.wf Meter.blank t.meters = true ∧ Sparse.wf EntryCounter.blank t.counters = true) : t.canonical = true := by
  rw [State.canonical_iff, hst]
  exact ⟨((State.canonical_iff s).mp h).1, ht⟩

theorem State.canonical_banks (h : s.canonical = true) :
    Sparse.wf SteerEntry.blank s.steer.bank0.table = true ∧ Sparse.wf MapEntry.blank s.steer.bank0.map = true ∧
      Sparse.wf SteerEntry.blank s.steer.bank1.table = true ∧ Sparse.wf MapEntry.blank s.steer.bank1.map = true :=
  ((State.canonical_iff s).mp h).2.1

theorem State.canonical_meters (h : s.canonical = true) : Sparse.wf Meter.blank s.meters = true :=
  ((State.canonical_iff s).mp h).2.2.1

theorem State.canonical_counters (h : s.canonical = true) : Sparse.wf EntryCounter.blank s.counters = true :=
  ((State.canonical_iff s).mp h).2.2.2

/-! ### The local port -/

theorem Work.setEgress (s : State) (x : Egress) : Work [.egress] s (s.setEgress x) := by
  refine ⟨⟨fun y hy => ?_, fun y h => by cases y <;> exact h⟩, fun p h => by cases p <;> exact h⟩
  have r := Part.same_refl s y
  cases y
  case egress => simp at hy
  all_goals exact r

theorem Work.lastOut (s : State) (x : Option OutByte) : Work F s { s with loc := { s.loc with lastOut := x } } := by
  refine ⟨⟨fun y _ => ?_, fun y h => by cases y <;> exact h⟩, fun p h => by cases p <;> exact h⟩
  have r := Part.same_refl s y
  cases y
  all_goals exact r

theorem State.still_refuseLocal (s : State) (why : RefuseReason) (b : Bool) : Still s (s.refuseLocal why b) :=
  ((s.still_raiseLocal _).trans (State.still_setIngress _ _)).trans (State.still_raiseEvent _ _ _ _)

theorem Work.handOverLocal (s : State) (r : Nat) : Work [.steer] s (s.handOverLocal r) :=
  (((s.still_setRecord r _).work.trans (.setBacklog _ .l _)).trans (State.still_raiseLocal _ _).work).trans
    (State.still_setIngress _ _).work

theorem Work.askLocal (s : State) (h : List Byte) (n : Nat) : Work [.steer, .mem] s (s.askLocal h n) := by
  unfold State.askLocal
  dsimp only
  split
  · next r s1 ha =>
    have w : Work [.steer, .mem] s (s1.fill r 0 h) :=
      ((s.still_askRoom ha).toQuiet.trans (State.quiet_fill _ _ _ _)).work (by simp)
    split
    · exact w.trans ((Work.handOverLocal _ r).mono (by simp))
    · exact w.trans (State.still_setIngress _ _).work
  · split
    · exact (s.still_refuseLocal _ _).work
    · exact (s.still_setIngress _).work

theorem Work.judgeLocal (s : State) (l : List Byte) (b : Bool) : Work [.steer, .mem] s (s.judgeLocal l b) := by
  have refuse := fun why => (s.still_refuseLocal why b).work (F := [.steer, .mem])
  unfold State.judgeLocal
  dsimp only
  split
  · exact refuse _
  · split
    · exact refuse _
    · split
      · exact refuse _
      · split
        · exact (s.still_setIngress _).work
        · exact .askLocal s _ _

theorem Work.localHeaderByte (s : State) (l : List Byte) (b : Bool) : Work [.steer, .mem] s (s.localHeaderByte l b) := by
  unfold State.localHeaderByte
  split
  · split
    · exact (s.still_refuseLocal _ _).work
    · exact (s.still_setIngress _).work
  · exact .judgeLocal s l b

theorem Work.localPayloadByte (s : State) (r k len : Nat) (b : Byte) (last : Bool) :
    Work [.steer, .mem] s (s.localPayloadByte r k len b last) := by
  have w := (s.quiet_writeFrameByte r (10 + k) b).work (F := [.steer, .mem]) (by simp)
  have abandoned := fun x => ((s.still_release r).trans (State.still_refuseLocal _ .lengthMismatch x)).work
    (F := [.steer, .mem])
  unfold State.localPayloadByte
  dsimp only
  split
  · split
    · exact w.trans ((Work.handOverLocal _ r).mono (by simp))
    · exact abandoned _
  · split
    · exact abandoned _
    · exact w.trans (State.still_setIngress _ _).work

theorem Work.takeLocalByte (s : State) (b : Byte) (last : Bool) : Work [.steer, .mem] s (s.takeLocalByte b last) := by
  unfold State.takeLocalByte
  split
  · split
    · exact .localHeaderByte s _ _
    · exact .localHeaderByte s _ _
    · exact .refl _ s
    · exact .localPayloadByte s _ _ _ _ _
    · split
      · exact (s.still_setIngress _).work
      · exact .refl _ s
  · exact .refl _ s

theorem Work.retryLocal (s : State) : Work [.steer, .mem] s s.retryLocal := by
  unfold State.retryLocal
  split
  · split
    · exact .refl _ s
    · exact .askLocal s _ _
  · exact .refl _ s

theorem Work.selectLocal (s : State) (n : Nat) : Work [.egress] s (s.selectLocal n) := by
  induction n generalizing s with
  | zero => exact .refl _ s
  | succ n ih =>
    unfold State.selectLocal
    split
    · exact .refl _ s
    · next e _ =>
      split
      · exact .setEgress s _
      · have k : Work [.egress] s ((s.raiseLocal .residenceDiscards).removeEntry .l e) :=
          ((s.still_raiseLocal _).trans (State.still_removeEntry _ _ e)).work
        dsimp only
        split
        · exact k
        · exact k.trans (ih _)

theorem Work.takeOutByte (s : State) : Work [.egress] s s.takeOutByte := by
  unfold State.takeOutByte
  have l := Work.lastOut (F := [.egress]) s s.outboundLines
  dsimp only
  split
  · exact .refl _ s
  · split
    · exact ((l.trans (.setEgress _ _)).trans (State.still_raiseLocal _ _).work).trans (State.still_removeEntry _ _ _).work
    · exact l.trans (.setEgress _ _)
  · exact l.trans (.setEgress _ _)

/-! ### Steering -/

/-- The meters replaced by a table in canonical form whose levels are within their bursts. -/
theorem Work.setMeters (s : State) (x : Sparse Meter)
    (hc : Sparse.wf Meter.blank s.meters = true → Sparse.wf Meter.blank x = true)
    (hl : s.metersSound = true → x.all (fun e => e.2.level_le) = true) :
    Work [.meters] s { s with meters := x } := by
  refine ⟨⟨fun y hy => ?_, fun y h => ?_⟩, fun p h => by cases p <;> exact h⟩
  · have r := Part.same_refl s y
    cases y
    case meters => simp at hy
    all_goals exact r
  · cases y
    case canonical =>
      exact State.canonical_of_store s _ rfl h
        ⟨State.canonical_banks (s := s) h, hc (State.canonical_meters h), State.canonical_counters (s := s) h⟩
    case meters => exact hl h
    all_goals exact h

theorem Work.setMeter (s : State) (i : Nat) (m : Meter) (hm : s.metersSound = true → m.level_le = true) :
    Work [.meters] s (s.setMeter i m) :=
  .setMeters s _ (Sparse.wf_set _ _ _ _) fun h => Sparse.all_set Meter.level_le _ _ i m h (hm h)

/-- All meters passed through a function that keeps a level within its burst. -/
theorem Work.mapMeters (s : State) (f : Meter → Meter) (hf : ∀ m, m.level_le = true → (f m).level_le = true) :
    Work [.meters] s { s with meters := Sparse.mapValues Meter.blank f s.meters } :=
  .setMeters s _ (Sparse.wf_mapValues _ _ _) fun h => Sparse.all_mapValues Meter.level_le _ f hf _ h

theorem Work.setCounter (s : State) (i : Nat) (c : EntryCounter) : Work [.counters] s (s.setCounter i c) := by
  refine ⟨⟨fun y hy => ?_, fun y h => ?_⟩, fun p h => by cases p <;> exact h⟩
  · have r := Part.same_refl s y
    cases y
    case counters => simp at hy
    all_goals exact r
  · cases y
    case canonical =>
      exact State.canonical_of_store s _ rfl h
        ⟨State.canonical_banks (s := s) h, State.canonical_meters (s := s) h,
          Sparse.wf_set _ _ _ _ (State.canonical_counters h)⟩
    all_goals exact h

theorem Work.lastServed (s : State) (q : Port) : Work [.steer] s { s with steer := { s.steer with lastServed := q } } := by
  refine ⟨⟨fun y hy => ?_, fun y h => by cases y <;> exact h⟩, fun p h => by cases p <;> exact h⟩
  have r := Part.same_refl s y
  cases y
  case steer => simp at hy
  all_goals exact r

/-- A cache within R158: at most eight entries, at most one per requester. -/
def CacheFits (l : List CacheEntry) : Prop := l.length ≤ 8 ∧ (l.map CacheEntry.requester).Nodup

theorem State.cacheSound_iff (s : State) : s.cacheSound = true ↔ CacheFits s.mgmt.cache := by
  simp [State.cacheSound, CacheFits]

theorem CacheFits.sublist {l m : List CacheEntry} (h : CacheFits m) (hs : l.Sublist m) : CacheFits l :=
  ⟨hs.length_le.trans h.1, h.2.sublist (hs.map _)⟩

/-- An entry made the most recent one. -/
theorem CacheFits.moved {l : List CacheEntry} {c : CacheEntry} (h : CacheFits l) (hc : c ∈ l) :
    CacheFits (l.erase c ++ [c]) := by
  have hp : (l.erase c ++ [c]).Perm l := List.perm_append_singleton c _ |>.trans (List.perm_cons_erase hc).symm
  exact ⟨hp.length_eq ▸ h.1, (hp.map _).nodup_iff.mpr h.2⟩

/-- An entry added to a cache with room and none of its requester. -/
theorem CacheFits.added {l : List CacheEntry} {c : CacheEntry} (h : CacheFits l) (hl : l.length < 8)
    (hc : c.requester ∉ l.map CacheEntry.requester) : CacheFits (l ++ [c]) := by
  refine ⟨by simp; omega, ?_⟩
  rw [List.map_append, List.nodup_append]
  exact ⟨h.2, by simp, fun x hx y hy e => hc (by simp_all)⟩

/-- A change of the management engine alone that leaves the executor where it stands. -/
theorem Work.setMgmt (s : State) (x : Mgmt) (hx : x.executor = s.mgmt.executor)
    (hq : .requests ∈ F ∧ (s.mgmt.queue.length ≤ 4 → x.queue.length ≤ 4) ∨ x.queue = s.mgmt.queue)
    (hc : .cache ∈ F ∧ (CacheFits s.mgmt.cache → CacheFits x.cache) ∨ x.cache = s.mgmt.cache) (hm : .mgmt ∈ F) :
    Work F s { s with mgmt := x } := by
  refine ⟨⟨fun y hy => ?_, fun y h => ?_⟩, fun p h => by cases p <;> exact h⟩
  · have r := Part.same_refl s y
    cases y
    case requests => exact hq.elim (fun h => absurd h.1 hy) id
    case cache => exact hc.elim (fun h => absurd h.1 hy) id
    case mgmt => exact absurd hm hy
    case current => simp [Part.same, State.current, hx]
    all_goals exact r
  · cases y
    case requests =>
      have k : s.mgmt.queue.length ≤ 4 := of_decide_eq_true h
      exact decide_eq_true (hq.elim (fun h => h.2 k) fun e => e.symm ▸ k)
    case cache =>
      have k := s.cacheSound_iff.mp h
      exact (State.cacheSound_iff _).mpr (hc.elim (fun h => h.2 k) fun e => e.symm ▸ k)
    all_goals exact h

theorem Work.setRequests (s : State) (x : List Request) (hx : s.mgmt.queue.length ≤ 4 → x.length ≤ 4) :
    Work [.requests, .mgmt] s { s with mgmt := { s.mgmt with queue := x } } :=
  .setMgmt s _ rfl (.inl ⟨by simp, hx⟩) (.inr rfl) (by simp)

theorem Work.raiseMgmt (s : State) (k : MgmtStat) : Work [.mgmt] s (s.raiseMgmt k) :=
  .setMgmt s _ rfl (.inr rfl) (.inr rfl) (by simp)

theorem Work.setEnums (s : State) (x : List Nat) : Work [.enums] s { s with enums := x } := by
  refine ⟨⟨fun y hy => ?_, fun y h => by cases y <;> exact h⟩, fun p h => by cases p <;> exact h⟩
  have r := Part.same_refl s y
  cases y
  case enums => simp at hy
  all_goals exact r

theorem Work.placeRequest (s : State) (r : Nat) (q : Station) : Work [.requests, .mgmt] s (s.placeRequest r q) := by
  unfold State.placeRequest
  split
  · next h =>
    exact (Work.setRequests s (s.mgmt.queue ++ [Request.mk r q]) (fun _ => by simp; omega)).trans
      (State.still_setRecord _ _ _).work
  · exact (Work.raiseMgmt s _).mono (by simp)

theorem Work.placeEnum (s : State) (r : Nat) : Work [.enums] s (s.placeEnum r) :=
  (Work.setEnums s _).trans (State.still_setRecord _ _ _).work

/-- What the steering of a frame may change. -/
abbrev steeringParts : List Part := [.meters, .counters, .enums, .requests, .mgmt, .mem]

/-- What a lookup may change. -/
abbrev lookupParts : List Part := .steer :: steeringParts

theorem Work.placeAll (s : State) (x : Targets) (c : TrafficClass) (r : Nat) (q : Station) :
    Work [.requests, .mgmt] s (s.placeAll x c r q) := by
  have place : ∀ (b : Bool) (u : State) (y : Port), Still u (if b then u.place y c r else u) := by
    intro b u y; split
    · exact u.still_place y c r
    · exact .refl u
  have w := (((place x.a s .a).trans (place x.b _ .b)).trans (place x.l _ .l)).work (F := [.requests, .mgmt])
  unfold State.placeAll
  dsimp only
  split
  · exact w.trans (.placeRequest _ _ _)
  · exact w

theorem Work.chargeMeter (s : State) (w : Option SteerEntry) (n : Nat) : Work [.meters] s (s.chargeMeter w n).1 := by
  unfold State.chargeMeter
  split
  · exact .refl _ s
  · exact .setMeter s _ _ fun h => Meter.charge_level_le _ _ (s.meter_level_le h _)

theorem Work.bumpCounter (s : State) (w : Option SteerEntry) (n : Nat) : Work [.counters] s (s.bumpCounter w n) := by
  unfold State.bumpCounter
  split
  · exact .refl _ s
  · exact .setCounter s _ _

theorem Work.steerByTables (s : State) (r : Nat) (q : Port) (k : FrameKind) (h : Header) (own : Station)
    (up : TrunkPort) : Work steeringParts s (s.steerByTables r q k h own up) := by
  have placed : ∀ (u : State) (h1 : Header) (x : Targets) (c : TrafficClass),
      Work steeringParts u (((u.storeSteered r h1).placeAll x c r h.source).finishPlacement r) := fun u h1 x c =>
    (((u.quiet_storeSteered r h1).work (by simp)).trans ((Work.placeAll _ x c r h.source).mono (by simp))).trans
      (State.still_finishPlacement _ r).work
  have charge := (Work.chargeMeter s (s.activeBank.winner q up k h) (s.record r).size).mono (G := steeringParts) (by simp)
  have bump := fun u : State =>
    (Work.bumpCounter u (s.activeBank.winner q up k h) (s.record r).size).mono (G := steeringParts) (by simp)
  unfold State.steerByTables
  dsimp only
  split
  · exact charge.trans (placed _ _ _ _)
  · exact (charge.trans (bump _)).trans (placed _ _ _ _)

theorem Work.steerFrame (s : State) (r : Nat) (q : Port) : Work steeringParts s (s.steerFrame r q) := by
  have finish := fun u : State => (u.still_finishPlacement r).work (F := steeringParts)
  have place := fun y c => (s.still_place y c r).work (F := steeringParts)
  unfold State.steerFrame
  dsimp only
  split
  · exact finish s
  · split
    · split
      · unfold State.steerNumbering
        refine Work.trans ?_ (finish _)
        split
        · exact (Work.placeEnum s r).mono (by simp)
        · exact place _ _
      · exact finish s
    · split
      · exact (s.still_raiseTrunk _ _).work.trans (finish _)
      · split
        · unfold State.carryThrough
          split
          · exact (place _ _).trans (finish _)
          · refine Work.trans ?_ (finish _)
            split
            · exact (Work.placeRequest s r _).mono (by simp)
            · exact .refl _ s
        · exact .steerByTables s r q _ _ _ _

theorem Work.lookup (s : State) : Work lookupParts s s.lookup := by
  unfold State.lookup
  split
  · exact .refl _ s
  · split
    · exact .refl _ s
    · exact (((Work.setBacklog s _ _).trans (.lastServed _ _)).mono (by simp)).trans ((Work.steerFrame _ _ _).mono (by simp))

/-! ### Numbering -/

theorem Work.setNumbering (s : State) (own : Station) (p : TrunkPort) (h1 : 1 ≤ own.toNat) (h2 : own.toNat ≤ 254) :
    Work [.numbering] s { s with numbering := .numbered own p } := by
  refine ⟨⟨fun y hy => ?_, fun y h => ?_⟩, fun p h => by cases p <;> exact h⟩
  · have r := Part.same_refl s y
    cases y
    case numbering => simp at hy
    all_goals exact r
  · cases y
    case numbering => exact decide_eq_true ⟨h1, h2⟩
    all_goals exact h

/-- The station of a valid offer is never 0 (R119). -/
theorem enumOffer_next_pos {l : List Byte} {o : EnumOffer} (h : enumOffer l = some o) : 1 ≤ o.next.toNat := by
  unfold enumOffer at h
  split at h
  · cases h
  · next hn =>
    cases h
    simp only [Bool.or_eq_true, beq_iff_eq, not_or] at hn
    exact Nat.one_le_iff_ne_zero.mpr fun e => hn.1.2 (BitVec.eq_of_toNat_eq e)

theorem State.quiet_sendEnumEnd (s : State) (p : TrunkPort) (last : Station) (x : EndStatus) (run : Half) :
    Quiet s (s.sendEnumEnd p last x run) :=
  (s.quiet_sendNumbering p _ _).trans (State.still_raiseEvent _ _ _ _).toQuiet

theorem State.quiet_passOn (s : State) (p : TrunkPort) (own : Station) (force : Bool) (run : Half) :
    Quiet s (s.passOn p own force run) := by
  unfold State.passOn
  split
  · exact s.quiet_sendNumbering _ _ _
  · exact s.quiet_sendEnumEnd _ _ _ _

theorem Work.handleOffer (s : State) (p : TrunkPort) (o : EnumOffer) (ho : 1 ≤ o.next.toNat) :
    Work [.numbering, .mem] s (s.handleOffer p o) := by
  unfold State.handleOffer
  split
  · split
    · exact (s.quiet_passOn _ _ _ _).work (by simp)
    · exact (s.still_raiseTrunk _ _).work
  · split
    · exact (s.quiet_sendEnumEnd _ _ _ _).work (by simp)
    · next hn =>
      have h254 : o.next.toNat ≤ 254 := by
        have : o.next.toNat ≠ 255 := fun e => hn (BitVec.eq_of_toNat_eq e)
        have : o.next.toNat < 256 := o.next.isLt
        omega
      exact (((Work.setNumbering s o.next p ho h254).mono (by simp)).trans (State.still_raiseEvent _ _ _ _).work).trans
        ((State.quiet_passOn _ _ _ _ _).work (by simp))

/-- What is picked is one of the ENUMs held, and the pick changes no part. -/
theorem State.pickEnum_work {s u : State} {r : Nat} (h : s.pickEnum = some (r, u)) : Work F s u := by
  unfold State.pickEnum at h
  split at h
  · cases h
  · cases h; exact .refl _ s
  · cases h; exact .chosen s

theorem Work.enumHandling (s : State) : Work [.numbering, .enums, .mem] s s.enumHandling := by
  unfold State.enumHandling
  split
  · exact .refl _ s
  · next r s1 h =>
    have handle : ∀ u : State, Work [.numbering, .enums, .mem] u (u.handleEnum r) := by
      intro u
      unfold State.handleEnum
      split
      · next ho => exact (Work.handleOffer _ _ _ (enumOffer_next_pos ho)).mono (by simp)
      · exact .refl _ _
    have held : Work [.numbering, .enums, .mem] s { s1 with enums := s1.enums.erase r } :=
      (State.pickEnum_work h).trans ((Work.setEnums s1 (s1.enums.erase r)).mono (by simp))
    exact (held.trans (handle _)).trans (State.still_dropRef _ r).work

/-! ### Banks, meters and the session -/

theorem Work.swapBanks (s : State) : Work [.steer, .active, .session] s s.swapBanks := by
  refine ⟨⟨fun y hy => ?_, fun y h => ?_⟩, fun p h => by cases p <;> exact h⟩
  · have r := Part.same_refl s y
    cases y
    case steer => simp at hy
    case active => simp at hy
    case session => simp at hy
    all_goals exact r
  · cases y
    case banks =>
      have k : s.steer.selector = bankOfGeneration s.steer.generation := of_decide_eq_true h
      refine decide_eq_true ?_
      show otherBank s.steer.selector = bankOfGeneration (s.steer.generation + 1)
      rw [bankOfGeneration_succ, k]
    all_goals exact h

theorem Work.setTime (s : State) (n : Time) : Work [.nodeTime] s { s with nodeTime := n } := by
  refine ⟨⟨fun y hy => ?_, fun y h => by cases y <;> exact h⟩, fun p h => by cases p <;> exact h⟩
  have r := Part.same_refl s y
  cases y
  case nodeTime => simp at hy
  all_goals exact r

theorem Work.meterTick (s : State) : Work [.nodeTime, .meters] s
    { s with nodeTime := s.nodeTime + 1, meters := Sparse.mapValues Meter.blank Meter.tick s.meters } :=
  ((Work.setTime s (s.nodeTime + 1)).mono (G := [.nodeTime, .meters]) (by simp)).trans
    ((Work.mapMeters { s with nodeTime := s.nodeTime + 1 } _ Meter.tick_level_le).mono (by simp))

theorem Work.setSession (s : State) (x : Session) : Work [.session] s { s with session := x } := by
  refine ⟨⟨fun y hy => ?_, fun y h => by cases y <;> exact h⟩, fun p h => by cases p <;> exact h⟩
  have r := Part.same_refl s y
  cases y
  case session => simp at hy
  all_goals exact r

theorem Work.setShadow (s : State) (b : Bank) (hb : s.canonical = true →
      Sparse.wf SteerEntry.blank b.table = true ∧ Sparse.wf MapEntry.blank b.map = true) :
    Work [.steer] s (s.setShadow b) := by
  refine ⟨⟨fun y hy => ?_, fun y h => ?_⟩, fun p h => ?_⟩
  · have r := Part.same_refl s y
    cases y
    case steer => simp at hy
    case active => exact ⟨by simp, by simp, by simp⟩
    all_goals
      unfold State.setShadow
      split <;> exact r
  · cases y
    case canonical =>
      refine State.canonical_of_store s _ (by simp) h ⟨?_, by simpa using State.canonical_meters h,
        by simpa using State.canonical_counters h⟩
      obtain ⟨h1, h2, h3, h4⟩ := State.canonical_banks h
      obtain ⟨b1, b2⟩ := hb h
      unfold State.setShadow
      split
      · exact ⟨h1, h2, b1, b2⟩
      · exact ⟨b1, b2, h3, h4⟩
    all_goals
      unfold State.setShadow
      split <;> exact h
  · unfold State.setShadow
    split <;> cases p <;> exact h

theorem State.shadow_wf (h : s.canonical = true) :
    Sparse.wf SteerEntry.blank s.shadowBank.table = true ∧ Sparse.wf MapEntry.blank s.shadowBank.map = true := by
  obtain ⟨h1, h2, h3, h4⟩ := State.canonical_banks h
  unfold State.shadowBank Steering.bank
  split
  · exact ⟨h1, h2⟩
  · exact ⟨h3, h4⟩

theorem Work.setShadowEntry (s : State) (i : Nat) (e : SteerEntry) :
    Work [.steer] s (s.setShadow (s.shadowBank.setEntry i e)) :=
  .setShadow s _ fun h => ⟨Sparse.wf_set _ _ _ _ (State.shadow_wf h).1, (State.shadow_wf h).2⟩

theorem Work.setShadowMapEntry (s : State) (i : Nat) (e : MapEntry) :
    Work [.steer] s (s.setShadow (s.shadowBank.setMapEntry i e)) :=
  .setShadow s _ fun h => ⟨(State.shadow_wf h).1, Sparse.wf_set _ _ _ _ (State.shadow_wf h).2⟩

theorem Work.copyStep (s : State) : Work [.steer, .session] s s.copyStep := by
  unfold State.copyStep
  dsimp only
  refine Work.trans (Work.mono (F := [.steer]) ?_ (by simp)) ((Work.setSession _ _).mono (by simp))
  split
  · exact .setShadowEntry s _ _
  · exact .setShadowMapEntry s _ _

/-! ### Commands of a request -/

/-- An answer touches the executor and the session timer. -/
theorem Work.answerCmd (s : State) (e : Execution) (c : Cmd) (rest : List Cmd) (r : CmdResult) (data : List Byte)
    (reset : Option ResetScope) : Work [.session, .current, .mgmt] s (s.answerCmd e c rest r data reset) := by
  obtain ⟨x, h, -⟩ := s.answerCmd_eq e c rest r data reset
  rw [h]
  refine ⟨⟨fun y hy => ?_, fun y h => by cases y <;> exact h⟩, fun p h => by cases p <;> exact h⟩
  have r := Part.same_refl s y
  cases y
  case session => simp at hy
  case current => simp at hy
  case mgmt => simp at hy
  all_goals exact r

/-- Taking a command is work within its own effect's footprint and the answer's. -/
theorem Work.runCommand (takes : Cmd → Bool) (body : Call → State → Verdict) (s : State)
    (h : ∀ call data reset t, (∃ c : Cmd, takes c = true ∧ c.args = call.args) → body call s = .pass data reset t →
      Work F s t) : Work ([.session, .current, .mgmt] ++ F) s (runCommand takes body s) := by
  rcases runCommand_cases takes body s with e | ⟨x, c, rest, r, -, -, e⟩ | ⟨x, c, rest, data, reset, t, -, ht, hb, e⟩ <;>
    rw [e]
  · exact .refl _ s
  · exact (Work.answerCmd s x c rest r [] none).mono (List.subset_append_left _ _)
  · exact ((h _ data reset t ⟨c, ht, rfl⟩ hb).mono (List.subset_append_right _ _)).trans
      ((Work.answerCmd t x c rest _ _ _).mono (List.subset_append_left _ _))

/-- A body that only reads. -/
theorem Work.of_reads {data data' : List Byte} {reset : Option ResetScope} (h : reads data s = .pass data' reset t) :
    Work F s t := by
  cases h; exact .refl _ s

theorem Work.bodyReadBank {c : Call} {a b : Nat} {f : Bank → Nat → List Byte} {data : List Byte}
    {reset : Option ResetScope} (h : readBank c s a b f = .pass data reset t) : Work F s t := by
  unfold readBank at h
  dsimp only at h
  split at h
  · cases h
  · split at h
    · cases h
    · split at h
      · cases h
      · split at h
        · cases h
        · exact .of_reads h

theorem Work.bodyReadMeter {c : Call} {data : List Byte} {reset : Option ResetScope}
    (h : bodyReadMeter c s = .pass data reset t) : Work F s t := by
  unfold Machine.bodyReadMeter at h
  dsimp only at h
  split at h
  · cases h
  · split at h
    · cases h
    · exact .of_reads h

theorem Work.bodyWriteMeter {c : Call} {data : List Byte} {reset : Option ResetScope}
    (h : bodyWriteMeter c s = .pass data reset t) : Work [.meters] s t := by
  unfold Machine.bodyWriteMeter at h
  split at h
  · cases h
  · split at h
    · cases h
    · split at h
      · cases h
      · cases h; exact .setMeter s _ _ fun _ => decide_eq_true (Nat.le_refl _)

theorem Work.onTrunkStats (s : State) (p : TrunkPort) (x : TrunkStats) :
    Work F s (s.setTrunk p { s.trunk p with stats := x }) :=
  .setTrunk s p _ (.inr rfl) (.inr rfl) rfl id

theorem Work.setLocalStats (s : State) (x : LocalStats) : Work F s { s with loc := { s.loc with stats := x } } := by
  refine ⟨⟨fun y _ => ?_, fun y h => by cases y <;> exact h⟩, fun p h => by cases p <;> exact h⟩
  have r := Part.same_refl s y
  cases y
  all_goals exact r

theorem Work.clearCounter (s : State) (g : Group) (n : Nat) : Work [.counters, .mgmt] s (s.clearCounter g n) := by
  cases g
  · exact (Work.setCounter s n _).mono (by simp)
  · exact .onTrunkStats s .a _
  · exact .onTrunkStats s .b _
  · exact .setLocalStats s _
  · exact .setMgmt s _ rfl (.inr rfl) (.inr rfl) (by simp)

/-- READ_COUNTERS changes a counter only where its clear flag is set. -/
theorem Work.bodyReadCounters {c : Call} {data : List Byte} {reset : Option ResetScope}
    (h : bodyReadCounters c s = .pass data reset t) :
    Work [.counters, .mgmt] s t ∧ (c.arg 3 ≠ 1 → t = s) := by
  unfold Machine.bodyReadCounters at h
  dsimp only at h
  split at h
  · cases h
  · next g _ =>
    split at h
    · cases h
    · split at h
      · cases h
      · split at h
        · cases h
        · split at h
          · cases h
          · cases h
            split
            · next h1 => exact ⟨.foldl _ (fun u i => .clearCounter u g _) _ s, fun hn => absurd h1 hn⟩
            · exact ⟨.refl _ s, fun _ => rfl⟩

theorem Work.bodyReadParam {c : Call} {data : List Byte} {reset : Option ResetScope}
    (h : bodyReadParam c s = .pass data reset t) : Work F s t := by
  unfold Machine.bodyReadParam at h
  split at h
  · cases h
  · exact .of_reads h

/-- What a WRITE_PARAM that passes its checks does. -/
theorem writeChecked_pass {effect : State → Nat → Nat → State} {c : Call} {data : List Byte} {reset : Option ResetScope}
    (h : writeChecked effect c s = .pass data reset t) :
    t = effect s (c.arg 0).toNat (halfAt c.args 1).toNat ∧ data = [] ∧ reset = none := by
  unfold writeChecked at h
  dsimp only at h
  split at h
  · cases h
  · split at h
    · cases h
    · split at h
      · cases h
      · cases h; exact ⟨rfl, rfl, rfl⟩

theorem setParam_attentionMask (q : Params) (n v : Nat) (h : n ≠ 21) : (setParam q n v).attentionMask = q.attentionMask := by
  unfold setParam
  split <;> first | rfl | exact absurd rfl h

theorem setParam_monitorStation (q : Params) (n v : Nat) (h : n ≠ 20) :
    (setParam q n v).monitorStation = q.monitorStation := by
  unfold setParam
  split <;> first | rfl | exact absurd rfl h

theorem Work.writeParam (s : State) (n v : Nat) (h : n ≠ 21) (hF : .params ∈ F) (hm : n = 20 → .mem ∈ F) :
    Work F s (s.writeParam n v) := by
  refine ⟨⟨fun y hy => ?_, fun y k => ?_⟩, fun p h => by cases p <;> exact h⟩
  · have r := Part.same_refl s y
    cases y
    case params => exact absurd hF hy
    case mem =>
      intro hn
      refine ⟨?_, rfl⟩
      simpa [State.writeParam, setParam_monitorStation _ _ _ (fun e => hy (hm e))] using hn
    all_goals exact r
  · cases y
    case events =>
      simp only [Promise.holds, State.eventsSound, State.writeParam, setParam_attentionMask _ _ _ h] at k ⊢
      exact k
    all_goals exact k

theorem Work.writeMask (s : State) (v : Nat) : Work [.params] s (s.writeMask 21 v) := by
  refine ⟨⟨fun y hy => ?_, fun y k => ?_⟩, fun p h => by cases p <;> exact h⟩
  · have r := Part.same_refl s y
    cases y
    case params => simp at hy
    all_goals exact r
  · cases y
    case events =>
      simp only [Promise.holds, State.eventsSound, State.writeMask, State.writeParam, Bool.and_eq_true] at k ⊢
      exact ⟨k.1, by simp⟩
    all_goals exact k

/-- The parts of both trunk ports that a command naming its port by an argument may change. -/
abbrev portParts : List Part := [.rx .a, .tx .a, .link .a, .rx .b, .tx .b, .link .b]

theorem Work.writeEnable (s : State) (n v : Nat) (h : n = 17 ∨ n = 18) :
    Work (.params :: portParts) s (s.writeEnable n v) := by
  have w := Work.writeParam (F := .params :: portParts) s n v (by omega) (by simp) (by omega)
  have sub : ∀ p : TrunkPort, [Part.link p, .tx p, .rx p] ⊆ .params :: portParts := by intro p; cases p <;> simp
  unfold State.writeEnable
  generalize (if n = 17 then TrunkPort.a else .b) = p
  dsimp only
  split
  · exact .refl _ s
  · split
    · exact w.trans ((Work.switchOn _ p).mono (sub p))
    · exact w.trans ((Work.switchOff _ p).mono (sub p))

/-- An attempt count set back leaves a transmitter with a frame in flight sound. -/
theorem Work.resetAttempts (s : State) (p : TrunkPort) : Work [.tx p] s (s.onTx p (fun t => { t with attempts := 0 })) := by
  refine (Touches.onTx s p _).work (.onTx s p _ fun hs => ?_)
  simp only [Transmitter.sound, Bool.and_eq_true, Bool.or_eq_true] at hs ⊢
  exact ⟨hs.1, hs.2.imp id fun h => ⟨h.1, rfl⟩⟩

theorem Work.carryOut (s : State) (p : TrunkPort) (d : Disposition) (h : (s.tx p).state = .held) :
    Work [.tx p] s (s.carryOut p d) := by
  cases d
  case retry =>
    show Work [.tx p] s (s.releaseRetry p)
    unfold State.releaseRetry
    dsimp only
    split
    · refine ⟨(Touches.onTx s p _).trans (.startCopy _ p), fun q hq => ?_⟩
      by_cases e : q = p
      · subst e
        have hi : (s.tx q).inFlight.isSome = true := by
          simp only [Transmitter.sound, h, Bool.and_eq_true] at hq
          simpa using hq.1.1.1
        have k := TxWork.onTx s q (fun t => { t with attempts := 0 })
        exact (Work.startCopy _ q (by rw [k.tx_eq]; exact hi)).tx q ((Work.resetAttempts s q).tx q hq)
      · rw [((TxWork.onTx s p (fun t => { t with attempts := 0 })).trans (.startCopy _ p)).tx_other e]; exact hq
    · exact (Work.resetAttempts s p).trans
        ((Touches.onTx _ p Transmitter.suspended).work (.onTx _ p _ (Transmitter.sound_suspended _)))
  case drop => exact .leaveFlight s p
  case flush =>
    show Work [.tx p] s (s.releaseFlush p)
    exact (s.still_removeEntries (portOf p) (fun _ => true)).work.trans ((Touches.onTx _ p
      (fun t => t.advanced.cleared)).work (.onTx _ p _ fun _ => Transmitter.sound_cleared _))

theorem Work.bodyRelease {d : Disposition} {c : Call} {data : List Byte} {reset : Option ResetScope}
    (h : bodyRelease d c s = .pass data reset t) : Work [.tx .a, .tx .b] s t := by
  unfold Machine.bodyRelease at h
  split at h
  · cases h
  · next p _ =>
    split at h
    · cases h
    · split at h
      · cases h
      · split at h
        · cases h
        · next hh =>
          cases h
          exact ((Work.carryOut s p d (by simpa using hh)).mono (by cases p <;> simp)).trans (State.still_raiseEvent _ _ _ _).work

theorem consecutive_drop (n : Half) (l : List EventRecord) (k : Nat) (h : consecutive n l = true) :
    consecutive (n + BitVec.ofNat 16 k) (l.drop k) = true := by
  induction k generalizing n l with
  | zero => simpa using h
  | succ k ih =>
    cases l with
    | nil => rfl
    | cons e l =>
      simp only [consecutive, Bool.and_eq_true] at h
      have := ih (n + 1) l h.2
      rwa [show n + 1 + BitVec.ofNat 16 k = n + BitVec.ofNat 16 (k + 1) by
        apply BitVec.eq_of_toNat_eq; simp; omega] at this

/-- The oldest records removed leave the event queue sound (R171). -/
theorem State.eventsSound_takeEvents (s : State) (n : Nat) (hn : n ≤ s.events.records.length) (h : s.eventsSound = true) :
    (s.takeEvents n).eventsSound = true := by
  simp only [State.eventsSound, Bool.and_eq_true, decide_eq_true_eq] at h ⊢
  obtain ⟨⟨⟨h1, h2⟩, h3⟩, -⟩ := h
  have hc := consecutive_drop _ _ n h2
  refine ⟨⟨⟨by simp [State.takeEvents]; omega, ?_⟩, ?_⟩, rfl⟩
  · have e : s.events.nextSeq - BitVec.ofNat 16 s.events.records.length + BitVec.ofNat 16 n =
        s.events.nextSeq - BitVec.ofNat 16 (s.events.records.drop n).length := by
      rw [List.length_drop]
      apply BitVec.eq_of_toNat_eq; simp; omega
    rw [e] at hc
    exact hc
  · simp only [State.takeEvents]
    cases (s.events.records.drop n).isEmpty <;> simp

theorem Work.takeEvents (s : State) (n : Nat) (hn : n ≤ s.events.records.length) : Work F s (s.takeEvents n) := by
  refine ⟨⟨fun y _ => ?_, fun y h => ?_⟩, fun p h => by cases p <;> exact h⟩
  · have r := Part.same_refl s y
    cases y
    all_goals exact r
  · cases y
    case events => exact s.eventsSound_takeEvents n hn h
    all_goals exact h

theorem Work.bodyReadEvents {c : Call} {data : List Byte} {reset : Option ResetScope}
    (h : bodyReadEvents c s = .pass data reset t) : Work F s t := by
  unfold Machine.bodyReadEvents at h
  dsimp only at h
  split at h
  · cases h
  · cases h; exact .takeEvents s _ (by omega)

theorem Work.bodyResetNode {c : Call} {data : List Byte} {reset : Option ResetScope}
    (h : bodyResetNode c s = .pass data reset t) : Work F s t := by
  unfold Machine.bodyResetNode at h
  split at h
  · cases h
  · split at h
    · cases h
    · split at h
      · cases h
      · cases h; exact .refl _ s

theorem Work.bodyWriteSteer {c : Call} {data : List Byte} {reset : Option ResetScope}
    (h : bodyWriteSteer c s = .pass data reset t) : Work [.steer] s t := by
  unfold Machine.bodyWriteSteer at h
  split at h
  · cases h
  · split at h
    · cases h
    · cases h; exact .setShadowEntry s _ _

theorem Work.bodyWriteChmap {c : Call} {data : List Byte} {reset : Option ResetScope}
    (h : bodyWriteChmap c s = .pass data reset t) : Work [.steer] s t := by
  unfold Machine.bodyWriteChmap at h
  split at h
  · cases h
  · split at h
    · cases h
    · cases h; exact .setShadowMapEntry s _ _

theorem Work.bodyOpenEdit {c : Call} {data : List Byte} {reset : Option ResetScope}
    (h : bodyOpenEdit c s = .pass data reset t) : Work [.session] s t := by
  unfold Machine.bodyOpenEdit at h
  split at h
  · cases h; exact .setSession s _
  · split at h
    · cases h; exact .refl _ s
    · cases h

theorem Work.bodyCloseEdit {c : Call} {data : List Byte} {reset : Option ResetScope}
    (h : bodyCloseEdit c s = .pass data reset t) : Work [.session] s t := by
  unfold Machine.bodyCloseEdit at h
  split at h
  · cases h
  · cases h; exact .setSession s _

theorem Work.bodySync {c : Call} {data : List Byte} {reset : Option ResetScope}
    (h : bodySync c s = .pass data reset t) : Work [.session] s t := by
  unfold Machine.bodySync at h
  split at h
  · cases h
  · cases h; exact .setSession s _

theorem Work.bodyCommit {c : Call} {data : List Byte} {reset : Option ResetScope}
    (h : bodyCommit c s = .pass data reset t) : Work [.session] s t := by
  unfold Machine.bodyCommit at h
  split at h
  · cases h
  · cases h; exact .setSession s _

theorem verdictOf_pass {e : Execution} {c : Cmd} {rest : List Cmd} {body : Call → State → Verdict} {data : List Byte}
    {reset : Option ResetScope} (h : verdictOf e c rest body s = .pass data reset t) :
    body { requester := e.requester, args := c.args, isLast := rest.isEmpty } s = .pass data reset t := by
  unfold verdictOf at h
  split at h
  · cases h
  · split at h
    · cases h
    · next hb => split at h <;> cases h; exact hb

theorem Work.takeCommit (s : State) : Work [.session, .current, .mgmt] s s.takeCommit := by
  unfold State.takeCommit
  split
  · exact .refl _ s
  · split
    · split
      · exact .answerCmd s _ _ _ _ _ _
      · next h => exact (Work.bodyCommit (verdictOf_pass h)).mono (by simp)
    · exact .refl _ s

theorem Work.closeSession (s : State) : Work [.session] s s.closeSession := .setSession s _

theorem Work.completeCommit (s : State) : Work [.session, .current, .mgmt] s s.completeCommit := by
  unfold State.completeCommit
  split
  · exact .refl _ s
  · split
    · exact (((Work.closeSession s).mono (by simp)).trans (State.still_raiseEvent _ _ _ _).work).trans
        (.answerCmd _ _ _ _ _ _ _)
    · exact .refl _ s

/-! ### The start and the end of a request -/

/-- The cache replaced at the end of an operation, by one that fits where the cache before the operation did. -/
theorem Work.thenCache (w : Work F s u) (x : List CacheEntry) (hx : CacheFits s.mgmt.cache → CacheFits x)
    (hc : .cache ∈ F) (hm : .mgmt ∈ F) : Work F s (u.setCache x) := by
  refine ⟨⟨fun y hy => ?_, fun y h => ?_⟩, fun p h => ?_⟩
  · refine Part.same_trans (w.same y hy) ?_
    have r := Part.same_refl u y
    cases y
    case cache => exact absurd hc hy
    case mgmt => exact absurd hm hy
    all_goals exact r
  · cases y
    case cache => exact (State.cacheSound_iff _).mpr (hx (s.cacheSound_iff.mp h))
    case canonical => exact w.keeps .canonical h
    case events => exact w.keeps .events h
    case meters => exact w.keeps .meters h
    case banks => exact w.keeps .banks h
    case numbering => exact w.keeps .numbering h
    case requests => exact w.keeps .requests h
    case receivers => exact w.keeps .receivers h
  · have k := w.tx p h
    cases p <;> exact k

theorem Work.setCache (s : State) (x : List CacheEntry) (hx : CacheFits s.mgmt.cache → CacheFits x) :
    Work [.cache, .mgmt] s (s.setCache x) :=
  (Work.refl _ s).thenCache x hx (by simp) (by simp)

theorem Work.setExecutor (s : State) (x : Executor) : Work [.current, .mgmt] s (s.setExecutor x) := by
  refine ⟨⟨fun y hy => ?_, fun y h => by cases y <;> exact h⟩, fun p h => by cases p <;> exact h⟩
  have r := Part.same_refl s y
  cases y
  case current => simp at hy
  case mgmt => simp at hy
  all_goals exact r

theorem Work.replay (s : State) (c : CacheEntry) : Work [.mgmt] s (s.replay c) := by
  unfold State.replay
  split
  · exact .refl _ s
  · split
    · exact .raiseMgmt s _
    · split
      · exact ((s.still_enqueue _ _ _).trans (State.still_setRecord _ _ _)).work.trans (.raiseMgmt _ _)
      · exact (s.still_raiseSkip _).work

theorem Work.endRequest (s : State) : Work [.requests, .mgmt] s s.endRequest := by
  unfold State.endRequest
  split
  · exact .refl _ s
  · next q rest hq =>
    exact (Work.setRequests s rest (by rw [hq]; simp; omega)).trans (State.still_dropRef _ _).work

/-- What the start and the end of a request may change. -/
abbrev requestParts : List Part := [.requests, .cache, .current, .mgmt]

theorem Work.startRequest (s : State) (q : Request) : Work requestParts s (s.startRequest q) := by
  unfold State.startRequest
  dsimp only
  split
  · next c hc =>
    have moved := Work.setCache s (s.mgmt.cache.erase c ++ [c]) fun h => h.moved (List.mem_of_find?_eq_some hc)
    exact ((moved.mono (by simp)).trans ((Work.replay _ _).mono (by simp))).trans ((Work.endRequest _).mono (by simp))
  · split
    · exact ((Work.raiseMgmt s _).mono (by simp)).trans ((Work.setExecutor _ _).mono (by simp))
    · exact (Work.setExecutor s _).mono (by simp)

theorem Work.evict (s : State) : Work [.cache, .mgmt] s s.evict := by
  unfold State.evict
  split
  · exact .refl _ s
  · next c rest hc =>
    exact (Work.setCache s rest fun h => h.sublist (by rw [hc]; exact List.sublist_cons_self c rest)).trans
      (State.still_dropRef _ _).work

theorem Work.admitResponse (s : State) (len n : Nat) : Work [.cache, .mgmt] s (s.admitResponse len n).2 := by
  induction n generalizing s with
  | zero => exact .refl _ s
  | succ n ih =>
    unfold State.admitResponse
    split
    · next h => exact (s.still_askRoom h).work
    · split
      · exact .refl _ s
      · exact (Work.evict s).trans (ih _)

/-- An entry in place of its requester's. -/
theorem CacheFits.replaced {l : List CacheEntry} {old c : CacheEntry} (h : CacheFits l) (ho : old ∈ l)
    (hr : old.requester = c.requester) : CacheFits (l.erase old ++ [c]) := by
  have hp : ((l.erase old ++ [c]).map CacheEntry.requester).Perm (l.map CacheEntry.requester) := by
    rw [List.map_append, List.map_singleton, ← hr]
    exact (List.perm_append_singleton _ _).trans ((List.perm_cons_erase ho).map CacheEntry.requester).symm
  refine ⟨?_, hp.nodup_iff.mpr h.2⟩
  have := hp.length_eq
  simp only [List.length_map] at this
  exact this ▸ h.1

theorem State.dropRef_cache (s : State) (r : Nat) : (s.dropRef r).mgmt.cache = s.mgmt.cache :=
  (s.still_dropRef r).calm.cache

theorem State.evict_cache (s : State) : s.evict.mgmt.cache = s.mgmt.cache.tail := by
  unfold State.evict
  split
  · next h => simp [h]
  · next h => rw [State.dropRef_cache, h]; rfl

theorem Work.cacheResponse (s : State) (c : CacheEntry) : Work [.cache, .mgmt] s (s.cacheResponse c) := by
  have held : Work [.cache, .mgmt] s (s.setRecord c.frame { s.record c.frame with
      refs := (s.record c.frame).refs + 1, state := if s.isQueued c.frame then .queued else .waiting }) :=
    (s.still_setRecord _ _).work
  have hm : (s.setRecord c.frame { s.record c.frame with
      refs := (s.record c.frame).refs + 1, state := if s.isQueued c.frame then .queued else .waiting }).mgmt.cache =
      s.mgmt.cache := rfl
  unfold State.cacheResponse
  dsimp only
  generalize s.setRecord c.frame _ = u at held hm ⊢
  split
  · next old ho =>
    have mem : old ∈ u.mgmt.cache := List.mem_of_find?_eq_some ho
    have req : old.requester = c.requester := by simpa using List.find?_some ho
    have removed : Work [.cache, .mgmt] s ((u.setCache (u.mgmt.cache.erase old)).dropRef old.frame) :=
      (held.trans (Work.setCache u _ fun h => h.sublist List.erase_sublist)).trans (State.still_dropRef _ _).work
    refine removed.thenCache _ (fun h => ?_) (by simp) (by simp)
    rw [State.dropRef_cache]
    exact CacheFits.replaced (hm ▸ h) mem req
  · next hn =>
    have absent : c.requester ∉ u.mgmt.cache.map CacheEntry.requester := by
      simpa using hn
    split
    · next hl => exact held.thenCache _ (fun h => (hm ▸ h).added hl absent) (by simp) (by simp)
    · refine (held.trans (Work.evict u)).thenCache _ (fun h => ?_) (by simp) (by simp)
      rw [State.evict_cache]
      have h : CacheFits u.mgmt.cache := hm ▸ h
      exact (h.sublist (List.tail_sublist _)).added (by have := h.1; simp; omega)
        (fun k => absent ((List.tail_sublist _).map _ |>.mem k))

theorem Work.respond (s : State) (e : Execution) : Work [.cache, .mgmt, .mem] s (s.respond e).1 := by
  unfold State.respond
  dsimp only
  have w := (Work.admitResponse s (responsePayload e.id e.malformed e.done).length (s.mgmt.cache.length + 1)).mono
    (G := [.cache, .mgmt, .mem]) (by simp)
  split
  · next h =>
    rw [h] at w
    exact ((w.trans ((State.quiet_fill _ _ _ _).work (by simp))).trans (State.still_placeByDest _ _ _).work).trans
      ((Work.cacheResponse _ _).mono (by simp))
  · next h =>
    rw [h] at w
    exact (w.trans ((Work.raiseMgmt _ _).mono (by simp))).trans (State.still_raiseEvent _ _ _ _).work

theorem Work.handOver (s : State) (e : Execution) : Work (.mem :: requestParts) s (s.handOver e) := by
  have counted : Work (.mem :: requestParts) s (if e.malformed then s else s.raiseMgmt .requestsExecuted) := by
    split
    · exact .refl _ s
    · exact (Work.raiseMgmt s _).mono (by simp)
  exact ((counted.trans ((Work.respond _ e).mono (by simp))).trans ((Work.endRequest _).mono (by simp))).trans
    ((Work.setExecutor _ _).mono (by simp))

/-! ### Resets -/

theorem Work.resetRx (s : State) (p : TrunkPort) : Work [.rx p] s (s.resetRx p) :=
  (Work.onRx s p _ fun _ => rfl).trans (State.still_abandon _ _).work

theorem Work.resetBacklog (s : State) (q : Port) : Work [.steer] s (s.resetBacklog q) :=
  (Work.setBacklog s q []).trans (Still.foldl _ (fun u r => u.still_release r) _ _).work

theorem Work.resetTx (s : State) (p : TrunkPort) (w : Watched) : Work [.tx p] s (s.resetTx p w) := by
  unfold State.resetTx
  split
  · exact (Touches.onTx s p _).work (.onTx s p _ fun _ => Transmitter.sound_cleared _)
  · split
    · split
      · exact (Touches.onTx s p _).work (.onTx s p _ (Transmitter.sound_suspended _))
      · exact .refl _ s
    · exact .leaveFlight s p

theorem Work.resetSender (s : State) (p : TrunkPort) (w : Watched) : Work [.tx p] s (s.resetSender p w) := by
  have h := (Work.resetTx s p w).trans (State.still_removeEntries _ (portOf p) (fun e => !isExempt w (portOf p) e)).work
  unfold State.resetSender
  dsimp only
  split
  · exact h.trans (.resume _ p)
  · exact h

theorem Work.cutEgress (s : State) : Work [.egress] s s.cutEgress := by
  unfold State.cutEgress
  split
  · exact (Work.chosen s).trans (.setEgress _ _)
  · exact .refl _ s

theorem Work.resetEgress (s : State) (w : Watched) : Work [.egress] s (s.resetEgress w) := by
  have cut : ∀ b : Bool, Work [.egress] s (if b then s.cutEgress else s) := by
    rintro (_ | _)
    · exact .refl _ s
    · exact .cutEgress s
  exact (cut _).trans (State.still_removeEntries _ _ _).work

theorem State.still_resetIngress (s : State) : Still s s.resetIngress :=
  (s.still_setIngress _).trans (State.still_abandon _ _)

theorem Work.resetRequests (s : State) : Work [.requests, .mgmt] s s.resetRequests :=
  (Work.setRequests s [] (by simp)).trans (Still.foldl _ (fun u r => u.still_dropRef r) _ _).work

theorem Work.resetEnums (s : State) : Work [.enums] s s.resetEnums :=
  (Work.setEnums s []).trans (Still.foldl _ (fun u r => u.still_dropRef r) _ _).work

theorem Work.refill (s : State) : Work [.meters, .steer] s { s with
    meters := Sparse.mapValues Meter.blank Meter.refilled s.meters, steer := { s.steer with lastServed := .l } } :=
  ((Work.lastServed s .l).mono (G := [.meters, .steer]) (by simp)).trans
    ((Work.mapMeters { s with steer := { s.steer with lastServed := .l } } Meter.refilled
      (fun _ _ => decide_eq_true (Nat.le_refl _))).mono (by simp))

/-- The pending state ended where one is pending: no command was in execution before and none is after. -/
theorem Work.endPending (s : State) (h : s.resetPending = true) : Work [.mgmt] s s.endPending := by
  refine ⟨⟨fun y hy => ?_, fun y h => by cases y <;> exact h⟩, fun p h => by cases p <;> exact h⟩
  have r := Part.same_refl s y
  cases y
  case mgmt => simp at hy
  case current =>
    unfold State.resetPending at h
    unfold Part.same State.current State.endPending
    split at h <;> simp_all
  all_goals exact r

/-- What a traffic reset may change. -/
abbrev trafficParts : List Part :=
  [.rx .a, .rx .b, .tx .a, .tx .b, .steer, .requests, .enums, .egress, .meters, .mgmt]

theorem Work.trafficReset (s : State) (w : Watched) (h : s.resetPending = true) : Work trafficParts s (s.trafficReset w) := by
  have receivers : Work trafficParts s (((s.endPending.resetRx .a).resetRx .b).resetIngress) :=
    ((((Work.endPending s h).mono (by simp)).trans ((Work.resetRx _ .a).mono (by simp))).trans
      ((Work.resetRx _ .b).mono (by simp))).trans (State.still_resetIngress _).work
  have backlogs : ∀ u : State, Work trafficParts u (((u.resetBacklog .a).resetBacklog .b).resetBacklog .l) := fun u =>
    (((Work.resetBacklog u .a).trans (.resetBacklog _ .b)).trans (.resetBacklog _ .l)).mono (by simp)
  have holders : ∀ u : State, Work trafficParts u (u.resetRequests.resetEnums.resetEgress w) := fun u =>
    (((Work.resetRequests u).mono (by simp)).trans ((Work.resetEnums _).mono (by simp))).trans
      ((Work.resetEgress _ w).mono (by simp))
  have senders : ∀ u : State, Work trafficParts u ((u.resetSender .a w).resetSender .b w) := fun u =>
    ((Work.resetSender u .a w).mono (by simp)).trans ((Work.resetSender _ .b w).mono (by simp))
  have refill := fun u : State => (Work.refill u).mono (G := trafficParts) (by simp)
  unfold State.trafficReset
  exact ((((receivers.trans (backlogs _)).trans (holders _)).trans (refill _)).trans (senders _)).trans
    (State.still_raiseEvent _ _ _ _).work

end Sys2Proof.Machine

end

section
/-! The footprint of every command: the parts it may change before a reset that it makes due is performed. -/

namespace Sys2Proof.Machine

variable {s t u : State} {F : List Part}

/-- What a pending reset may still do at the end of a command (R164): nothing, or its performance. -/
def Performed (u t : State) : Prop := t = u ∨ ∃ r, u.mgmt.executor = .resetPending r ∧ t = u.performReset r

theorem Performed.refl (u : State) : Performed u u := .inl rfl

theorem State.settle_performed (u : State) : Performed u u.settle := by
  unfold State.settle
  split
  · next r h =>
    split
    · exact .inr ⟨r, h, rfl⟩
    · exact .refl u
  · exact .refl u

/-- The parts a command may change, a reset at its end apart. -/
def footprint : Instr → List Part
  | .powerOnReset => []
  | .sofReceived p => [.link p, .tx p, .rx p]
  | .dataByteReceived p _ => [.link p, .tx p, .rx p, .mem]
  | .eofReceived p => [.link p, .tx p, .rx p, .steer]
  | .codeErrorReceived p => [.link p, .rx p]
  | .ackReceived p _ => [.link p, .tx p]
  | .nakReceived p _ _ => [.link p, .tx p]
  | .helloReceived p => [.link p, .tx p, .rx p]
  | .idleReceived p => [.link p, .tx p]
  | .silenceTimeout p => [.link p, .tx p, .rx p]
  | .answerSent p => [.rx p]
  | .lookup => lookupParts
  | .bankSwap => [.steer, .active, .session]
  | .commitComplete => [.session, .current, .mgmt]
  | .meterTick => [.nodeTime, .meters]
  | .txSelect p => [.tx p]
  | .copyEofSent p => [.tx p]
  | .ackWaitExpiry p => [.tx p]
  | .retryWaitExpiry p => [.tx p]
  | .enumHandling => [.numbering, .enums, .mem]
  | .sessionTimerExpiry => [.session]
  | .syncCopyStep => [.steer, .session]
  | .requestStart => requestParts
  | .info => [.session, .current, .mgmt]
  | .readSteer => [.session, .current, .mgmt]
  | .writeSteer => [.session, .current, .mgmt, .steer]
  | .readChmap => [.session, .current, .mgmt]
  | .writeChmap => [.session, .current, .mgmt, .steer]
  | .openEdit => [.session, .current, .mgmt]
  | .closeEdit => [.session, .current, .mgmt]
  | .sync => [.session, .current, .mgmt]
  | .commit => [.session, .current, .mgmt]
  | .editStatus => [.session, .current, .mgmt]
  | .readMeter => [.session, .current, .mgmt]
  | .writeMeter => [.session, .current, .mgmt, .meters]
  | .readCounters => [.session, .current, .mgmt]
  | .readCountersClear => [.session, .current, .mgmt, .counters]
  | .readParam => [.session, .current, .mgmt]
  | .writeParam => [.session, .current, .mgmt, .params, .mem]
  | .portEnableWrite => [.session, .current, .mgmt, .params] ++ portParts
  | .attentionMaskWrite => [.session, .current, .mgmt, .params]
  | .releasePortRetry => [.session, .current, .mgmt, .tx .a, .tx .b]
  | .releasePortDrop => [.session, .current, .mgmt, .tx .a, .tx .b]
  | .releasePortFlush => [.session, .current, .mgmt, .tx .a, .tx .b]
  | .readEvents => [.session, .current, .mgmt]
  | .resetNode => [.session, .current, .mgmt]
  | .responseHandover => .mem :: requestParts
  | .resetLimitExpiry => []
  | .localIngressByte _ _ => [.steer, .mem]
  | .localAdmissionRetry => [.steer, .mem]
  | .localEgressSelect => [.egress]
  | .localEgressByte => [.egress]

/-- The argument a WRITE_PARAM row is split by is the parameter number its checks read. -/
theorem Call.arg_eq {call : Call} {c : Cmd} (h : c.args = call.args) (i : Nat) : call.arg i = byteAt c.args i := by
  rw [h]; rfl

/-- The commands at whose end a reset may be performed: those at which a watched response may leave, and the limit's expiry
(R164). -/
def settles : Instr → Bool
  | .sofReceived _ | .dataByteReceived _ _ | .eofReceived _ | .ackReceived _ _ | .nakReceived _ _ _ | .helloReceived _
  | .idleReceived _ | .silenceTimeout _ | .txSelect _ | .copyEofSent _ | .ackWaitExpiry _ | .retryWaitExpiry _
  | .responseHandover | .resetLimitExpiry | .localEgressSelect | .localEgressByte => true
  | _ => false

/-- Every command but a power-on reset is work within its footprint, and then, where it is one of those at which a watched
response may leave, a reset that is due. -/
theorem exec_work (c : Instr) (hc : c ≠ .powerOnReset) (s : State) :
    ∃ u t, exec c s = .next t ∧ Work (footprint c) s u ∧ Performed u t ∧ (t = u ∨ settles c = true) := by
  have settled : ∀ u, settles c = true → exec c s = .next u.settle → Work (footprint c) s u →
      ∃ u t, exec c s = .next t ∧ Work (footprint c) s u ∧ Performed u t ∧ (t = u ∨ settles c = true) :=
    fun u k e w => ⟨u, _, e, w, u.settle_performed, .inr k⟩
  have plain : ∀ u, exec c s = .next u → Work (footprint c) s u →
      ∃ u t, exec c s = .next t ∧ Work (footprint c) s u ∧ Performed u t ∧ (t = u ∨ settles c = true) :=
    fun u e w => ⟨u, u, e, w, .refl u, .inl rfl⟩
  cases c
  case powerOnReset => exact absurd rfl hc
  case sofReceived p => exact settled _ rfl rfl (.hear s p _ fun u => .takeSof u p)
  case dataByteReceived p b => exact settled _ rfl rfl (.hear s p _ fun u => .takeData u p b)
  case eofReceived p => exact settled _ rfl rfl (.hear s p _ fun u => .takeEof u p)
  case codeErrorReceived p => exact plain _ rfl (.hearError s p)
  case ackReceived p q => exact settled _ rfl rfl ((Work.hear s p _ fun u => .takeAck u p q).mono (by simp [footprint]))
  case nakReceived p q why => exact settled _ rfl rfl ((Work.hear s p _ fun u => .takeNak u p q why).mono (by simp [footprint]))
  case helloReceived p => exact settled _ rfl rfl (.hear s p _ fun u => .takeHello u p)
  case idleReceived p => exact settled _ rfl rfl (.hear s p _ fun u => .refl _ u)
  case silenceTimeout p => exact settled _ rfl rfl (.silence s p)
  case answerSent p => exact plain _ rfl (.sendAnswer s p)
  case lookup => exact plain _ rfl (.lookup s)
  case bankSwap =>
    by_cases h : (s.session.swapRequested && !s.session.swapTaken) = true
    · exact plain s.swapBanks (if_pos h) (.swapBanks s)
    · exact plain s (if_neg h) (.refl _ s)
  case commitComplete => exact plain _ rfl (.completeCommit s)
  case meterTick => exact plain _ rfl (.meterTick s)
  case txSelect p =>
    by_cases h : s.maySelect p = true
    · exact settled _ rfl (if_pos h) (.select s p _)
    · exact plain s (if_neg h) (.refl _ s)
  case copyEofSent p =>
    by_cases h : (s.tx p).state = .sending
    · exact settled _ rfl (if_pos h) (.endCopy s p)
    · exact plain s (if_neg h) (.refl _ s)
  case ackWaitExpiry p =>
    by_cases h : (s.tx p).state = .awaitingAck ∧ (s.tx p).timer.isSome = true
    · exact settled _ rfl (if_pos h) (.failAttempt s p h.1)
    · exact plain s (if_neg h) (.refl _ s)
  case retryWaitExpiry p =>
    by_cases h : (s.tx p).state = .retryWait ∧ (s.tx p).timer.isSome = true
    · exact settled _ rfl (if_pos h) (.retransmit s p)
    · exact plain s (if_neg h) (.refl _ s)
  case enumHandling => exact plain _ rfl (.enumHandling s)
  case sessionTimerExpiry =>
    by_cases h : s.session.state ≠ .closed ∧ s.session.timer.isSome = true
    · exact plain _ (if_pos h) ((Work.closeSession s).trans (State.still_raiseEvent _ _ _ _).work)
    · exact plain s (if_neg h) (.refl _ s)
  case syncCopyStep =>
    by_cases h : s.session.state = .syncing
    · exact plain _ (if_pos h) (.copyStep s)
    · exact plain s (if_neg h) (.refl _ s)
  case requestStart =>
    have : exec .requestStart s = .next s ∨ ∃ q, exec .requestStart s = .next (s.startRequest q) := by
      show execRequestStart s = _ ∨ ∃ q, execRequestStart s = _
      unfold execRequestStart
      split
      · exact .inr ⟨_, rfl⟩
      · exact .inl rfl
    rcases this with e | ⟨q, e⟩
    · exact plain s e (.refl _ s)
    · exact plain _ e (.startRequest s q)
  case info => exact plain _ rfl (.runCommand (F := []) _ _ s fun _ _ _ _ _ h => .of_reads h)
  case readSteer => exact plain _ rfl (.runCommand (F := []) _ _ s fun _ _ _ _ _ h => .bodyReadBank h)
  case writeSteer => exact plain _ rfl (.runCommand _ _ s fun _ _ _ _ _ h => .bodyWriteSteer h)
  case readChmap => exact plain _ rfl (.runCommand (F := []) _ _ s fun _ _ _ _ _ h => .bodyReadBank h)
  case writeChmap => exact plain _ rfl (.runCommand _ _ s fun _ _ _ _ _ h => .bodyWriteChmap h)
  case openEdit =>
    exact plain _ rfl ((Work.runCommand _ _ s fun _ _ _ _ _ h => .bodyOpenEdit h).mono (by simp [footprint]))
  case closeEdit =>
    exact plain _ rfl ((Work.runCommand _ _ s fun _ _ _ _ _ h => .bodyCloseEdit h).mono (by simp [footprint]))
  case sync => exact plain _ rfl ((Work.runCommand _ _ s fun _ _ _ _ _ h => .bodySync h).mono (by simp [footprint]))
  case commit => exact plain _ rfl (.takeCommit s)
  case editStatus => exact plain _ rfl (.runCommand (F := []) _ _ s fun _ _ _ _ _ h => .of_reads h)
  case readMeter => exact plain _ rfl (.runCommand (F := []) _ _ s fun _ _ _ _ _ h => .bodyReadMeter h)
  case writeMeter => exact plain _ rfl (.runCommand _ _ s fun _ _ _ _ _ h => .bodyWriteMeter h)
  case readCounters =>
    refine plain _ rfl (.runCommand (F := []) _ _ s fun call _ _ t hc h => ?_)
    obtain ⟨c, ht, ha⟩ := hc
    rw [(Work.bodyReadCounters h).2]
    · exact .refl _ s
    · rw [Call.arg_eq ha]
      simp only [asksClear, Bool.and_eq_true, Bool.not_eq_true', beq_eq_false_iff_ne] at ht
      exact ht.2
  case readCountersClear =>
    exact plain _ rfl ((Work.runCommand _ _ s fun _ _ _ _ _ h => (Work.bodyReadCounters h).1).mono (by simp [footprint]))
  case readParam => exact plain _ rfl (.runCommand (F := []) _ _ s fun _ _ _ _ _ h => .bodyReadParam h)
  case writeParam =>
    refine plain _ rfl (.runCommand (F := [.params, .mem]) _ _ s fun call _ _ t hc h => ?_)
    obtain ⟨c, ht, ha⟩ := hc
    rw [(writeChecked_pass h).1]
    refine .writeParam s _ _ (fun h21 => ?_) (by simp) (fun _ => by simp)
    rw [Call.arg_eq ha] at h21
    have : byteAt c.args 0 = 21 := BitVec.eq_of_toNat_eq h21
    simp [namesMask, this] at ht
  case portEnableWrite =>
    refine plain _ rfl ((Work.runCommand (F := .params :: portParts) _ _ s fun call _ _ t hc h => ?_).mono
      (by simp [footprint]))
    obtain ⟨c, ht, ha⟩ := hc
    rw [(writeChecked_pass h).1]
    refine .writeEnable s _ _ ?_
    simp only [namesEnable, Bool.and_eq_true, Bool.or_eq_true, beq_iff_eq] at ht
    rw [Call.arg_eq ha]
    exact ht.2.imp (congrArg BitVec.toNat) (congrArg BitVec.toNat)
  case attentionMaskWrite =>
    refine plain _ rfl ((Work.runCommand (F := [.params]) _ _ s fun call _ _ t hc h => ?_).mono (by simp [footprint]))
    obtain ⟨c, ht, ha⟩ := hc
    simp only [namesMask, Bool.and_eq_true, beq_iff_eq] at ht
    rw [(writeChecked_pass h).1, Call.arg_eq ha, ht.2]
    exact .writeMask s _
  case releasePortRetry => exact plain _ rfl (.runCommand _ _ s fun _ _ _ _ _ h => .bodyRelease h)
  case releasePortDrop => exact plain _ rfl (.runCommand _ _ s fun _ _ _ _ _ h => .bodyRelease h)
  case releasePortFlush => exact plain _ rfl (.runCommand _ _ s fun _ _ _ _ _ h => .bodyRelease h)
  case readEvents => exact plain _ rfl (.runCommand (F := []) _ _ s fun _ _ _ _ _ h => .bodyReadEvents h)
  case resetNode => exact plain _ rfl (.runCommand (F := []) _ _ s fun _ _ _ _ _ h => .bodyResetNode h)
  case responseHandover =>
    have : exec .responseHandover s = .next s ∨ ∃ e, exec .responseHandover s = .next (s.handOver e).settle := by
      show execResponseHandover s = _ ∨ ∃ e, execResponseHandover s = _
      unfold execResponseHandover
      split
      · split
        · exact .inr ⟨_, rfl⟩
        · exact .inl rfl
      · exact .inl rfl
    rcases this with e | ⟨x, e⟩
    · exact plain s e (.refl _ s)
    · exact settled _ rfl e (.handOver s x)
  case resetLimitExpiry =>
    cases hx : s.mgmt.executor with
    | resetPending r =>
      exact ⟨s, s.performReset r, by simp [exec, execResetLimitExpiry, hx], .refl _ s,
        .inr ⟨r, hx, rfl⟩, .inr rfl⟩
    | idle => exact plain s (by simp [exec, execResetLimitExpiry, hx]) (.refl _ s)
    | executing e => exact plain s (by simp [exec, execResetLimitExpiry, hx]) (.refl _ s)
  case localIngressByte b last => exact plain _ rfl (.takeLocalByte s b last)
  case localAdmissionRetry => exact plain _ rfl (.retryLocal s)
  case localEgressSelect =>
    by_cases h : s.loc.egress = .idle
    · exact settled _ rfl (if_pos h) (.selectLocal s _)
    · exact plain s (if_neg h) (.refl _ s)
  case localEgressByte => exact settled _ rfl rfl (.takeOutByte s)

/-- The same, read off an answer. -/
theorem exec_next_work {c : Instr} (hc : c ≠ .powerOnReset) (h : exec c s = .next t) :
    ∃ u, Work (footprint c) s u ∧ Performed u t ∧ (t = u ∨ settles c = true) := by
  obtain ⟨u, t', e, w, p⟩ := exec_work c hc s
  rw [e] at h
  cases h
  exact ⟨u, w, p⟩

/-! ### The resets -/

theorem State.resetPending_of_executor {r : PendingReset} (h : s.mgmt.executor = .resetPending r) :
    s.resetPending = true := by
  simp [State.resetPending, h]

/-- A reset that is performed is a traffic reset or a full one. -/
theorem Performed.cases (h : Performed u t) : t = u ∨
    (∃ w, u.resetPending = true ∧ t = u.trafficReset w) ∨ (u.fullResetPending = true ∧ t = u.fullReset) := by
  rcases h with h | ⟨r, hr, rfl⟩
  · exact .inl h
  · unfold State.performReset
    split
    · exact .inr (.inl ⟨_, State.resetPending_of_executor hr, rfl⟩)
    · next hs => exact .inr (.inr ⟨by simp [State.fullResetPending, hr, hs], rfl⟩)

@[simp] theorem State.poweredUp_pending (s : State) (x : Half) : (s.poweredUp x).pending = s.pending := rfl

theorem State.fullReset_pending (s : State) : s.fullReset.pending = s.pending := by
  simp [State.fullReset]

theorem Performed.pending (h : Performed u t) : t.pending = u.pending := by
  rcases h.cases with e | ⟨w, hp, e⟩ | ⟨-, e⟩ <;> rw [e]
  · exact (Work.trafficReset u w hp).same .pending (by simp)
  · exact u.fullReset_pending

theorem pending_not_mem_footprint (c : Instr) : Part.pending ∉ footprint c := by
  cases c <;> simp [footprint]

/-- Settles O2: each command is work within a footprint that the queue of waiting commands is no part of, and a reset
keeps that queue. -/
theorem everyCommandCompletes : Obligations.EveryCommandCompletes := by
  intro c s
  by_cases hc : c = .powerOnReset
  · subst hc; exact ⟨_, rfl, rfl⟩
  · obtain ⟨u, t, e, w, p, -⟩ := exec_work c hc s
    exact ⟨t, e, p.pending.trans (w.same .pending (pending_not_mem_footprint c))⟩

/-- Settles O1. -/
theorem stepRunsFrontCommand : Obligations.StepRunsFrontCommand :=
  ⟨fun _ _ _ => rfl, fun s h => by simp [step, h]⟩

/-! ### Steps -/

/-- A step idles or runs a command on the state with that command taken off the queue. -/
theorem step_cases (h : step s = .next t) : t = s ∨ ∃ c rest, exec c { s with pending := rest } = .next t := by
  unfold step at h
  split at h
  · cases h; exact .inl rfl
  · exact .inr ⟨_, _, h⟩

/-- A promise that every command keeps, whatever commands wait, every step keeps. -/
theorem step_keeps {P : State → Prop} (hq : ∀ s q, P s → P { s with pending := q })
    (he : ∀ c s t, P s → exec c s = .next t → P t) (hs : P s) (h : step s = .next t) : P t := by
  rcases step_cases h with rfl | ⟨c, rest, e⟩
  · exact hs
  · exact he c _ t (hq s rest hs) e

/-- A promise that work and the three resets keep, every command keeps. -/
theorem exec_keeps {P : State → Prop} (hw : ∀ c s u, Work (footprint c) s u → P s → P u)
    (ht : ∀ u w, u.resetPending = true → P u → P (u.trafficReset w)) (hp : ∀ u x, P u → P (State.poweredUp u x))
    (hf : ∀ u, P u → P u.fullReset) (c : Instr) (s t : State) (hs : P s) (h : exec c s = .next t) : P t := by
  by_cases hc : c = .powerOnReset
  · subst hc
    have e : s.powerOn = t := Host.Outcome.next.inj h
    exact e ▸ hp s 1 hs
  · obtain ⟨u, w, p, -⟩ := exec_next_work hc h
    have hu := hw c s u w hs
    rcases p.cases with e | ⟨w, hp, e⟩ | ⟨-, e⟩ <;> rw [e]
    · exact hu
    · exact ht u w hp hu
    · exact hf u hu

end Sys2Proof.Machine

end

section
/-! What every step keeps: the canonical form, meters, banks, numbering, the event queue, requests and cache, the receivers
and the transmitters. -/

namespace Sys2Proof.Machine

variable {s t u : State} {F : List Part}

theorem Promise.poweredUp (s : State) (cause : Half) (x : Promise) (h : x.holds s = true) :
    x.holds (s.poweredUp cause) = true := by
  cases x
  case canonical =>
    obtain ⟨⟨hm, -⟩, -⟩ := s.canonical_iff.mp h
    exact (State.canonical_iff _).mpr ⟨⟨hm, rfl⟩, ⟨rfl, rfl, rfl, rfl⟩, rfl, rfl⟩
  case banks =>
    have hb : decide (BankName.bank0 = bankOfGeneration 0) = true := by decide
    exact hb
  case events =>
    have ha : selects 0 .resetDone = false := by decide
    simpa [Promise.holds, State.eventsSound, State.poweredUp, EventQueue.initial, consecutive, attentionOf, State.reset,
      Params.initial] using ha
  all_goals rfl

theorem Promise.fullReset (s : State) (x : Promise) (h : x.holds s = true) : x.holds s.fullReset = true := by
  have k := Promise.poweredUp s.cutEgress (causeCode .full) x ((Work.cutEgress s).keeps x h)
  cases x <;> exact k

theorem Promise.pending (s : State) (q : List Instr) (x : Promise) (h : x.holds s = true) :
    x.holds { s with pending := q } = true := by
  cases x <;> exact h

/-- Every step keeps every promise that holds within an operation too. -/
theorem Promise.step (x : Promise) (hs : x.holds s = true) (h : step s = .next t) : x.holds t = true :=
  step_keeps (P := fun u => x.holds u = true) (fun u q => Promise.pending u q x)
    (exec_keeps (fun _ _ _ w => w.keeps x) (fun u w hp => (Work.trafficReset u w hp).keeps x)
      (fun u c => Promise.poweredUp u c x) (fun u => Promise.fullReset u x)) hs h

/-- Settles O4. -/
theorem stepKeepsCanonicalForm : Obligations.StepKeepsCanonicalForm := fun _ _ hs h => Promise.canonical.step hs h

/-- Settles O6. -/
theorem stepKeepsEventQueueSound : Obligations.StepKeepsEventQueueSound := fun _ _ hs h => Promise.events.step hs h

/-- Settles O7. -/
theorem stepKeepsRequestsAndCacheBounded : Obligations.StepKeepsRequestsAndCacheBounded := fun _ _ hq hc h =>
  ⟨Promise.requests.step hq h, Promise.cache.step hc h⟩

theorem State.transmittersSound_iff (s : State) :
    s.transmittersSound = true ↔ ∀ p, (s.tx p).sound = true := by
  rw [State.transmittersSound, Bool.and_eq_true]
  exact ⟨fun h p => by cases p <;> [exact h.1; exact h.2], fun h => ⟨h .a, h .b⟩⟩

/-- Settles O8: work keeps each transmitter sound, and a power-on or full reset makes both IDLE with nothing in flight. -/
theorem stepKeepsTransmittersSound : Obligations.StepKeepsTransmittersSound := by
  intro s t hs h
  refine step_keeps (P := fun u => u.transmittersSound = true) (fun _ _ => id)
    (exec_keeps (fun c u v w k => ?_) (fun u w hp k => ?_) (fun _ _ _ => rfl) (fun _ _ => rfl)) hs h
  · exact v.transmittersSound_iff.mpr fun p => w.tx p (u.transmittersSound_iff.mp k p)
  · exact (State.transmittersSound_iff _).mpr fun p =>
      (Work.trafficReset u w hp).tx p (u.transmittersSound_iff.mp k p)

end Sys2Proof.Machine

end

section
/-! What every step keeps of the receivers and of the link monitors: a link changes only where a symbol is heard, where its
silence timer expires and where its port is switched. -/

namespace Sys2Proof.Machine

variable {s t u : State} {F : List Part}

/-- A link monitor (R94, R95) that fits its port's enable (R97): the timer runs exactly while enabled, and UP only then. -/
def Link.fits (l : Link) (on : Bool) : Prop := l.sound = true ∧ l.silence = on ∧ (l.up = true → on = true)

theorem State.linksSound_iff (s : State) :
    s.linksSound = true ↔ ∀ p, Link.fits (s.trunk p).link (s.enabled p) := by
  simp only [State.linksSound, Bool.and_eq_true, decide_eq_true_eq, Bool.or_eq_true, Bool.not_eq_true', Link.fits]
  constructor
  · rintro ⟨⟨⟨⟨⟨sa, sb⟩, ta⟩, tb⟩, ua⟩, ub⟩ (_ | _)
    · exact ⟨sa, ta, fun h => ua.resolve_left (by simpa [State.trunk] using h)⟩
    · exact ⟨sb, tb, fun h => ub.resolve_left (by simpa [State.trunk] using h)⟩
  · intro h
    obtain ⟨sa, ta, ua⟩ := h .a
    obtain ⟨sb, tb, ub⟩ := h .b
    refine ⟨⟨⟨⟨⟨sa, sb⟩, ta⟩, tb⟩, ?_⟩, ?_⟩
    · cases hu : s.trunkA.link.up
      · exact .inl rfl
      · exact .inr (ua hu)
    · cases hu : s.trunkB.link.up
      · exact .inl rfl
      · exact .inr (ub hu)

/-! ### The link of one port -/

/-- A valid symbol heard on an enabled port leaves a sound link, brought UP by the 64th of a run. -/
theorem Link.fits_heard (l : Link) (h : l.fits true) :
    Link.fits (if l.heard.runComplete then { l.heard with up := true } else l.heard) true := by
  obtain ⟨hs, -, -⟩ := h
  simp only [Link.sound, Bool.and_eq_true, Bool.or_eq_true, decide_eq_true_eq] at hs
  obtain ⟨h1, h2⟩ := hs
  cases hu : l.up
  · have hr : l.run < runLength := h2.resolve_left (by simp [hu])
    by_cases hc : runLength ≤ l.run + 1
    · simp [Link.runComplete, Link.heard, hu, hc, Link.fits, Link.sound]; omega
    · simp [Link.runComplete, Link.heard, hu, hc, Link.fits, Link.sound]; omega
  · simp [Link.runComplete, Link.heard, hu, Link.fits, Link.sound, h1]

theorem Link.fits_down (on : Bool) : Link.fits { up := false, run := 0, silence := on } on := by
  refine ⟨?_, rfl, fun h => by cases h⟩
  simp [Link.sound, runLength]

theorem State.trunk_onLink_same (s : State) (p : TrunkPort) (f : Link → Link) :
    ((s.onLink p f).trunk p).link = f (s.trunk p).link := by cases p <;> rfl

theorem State.linkUp_link (s : State) (p : TrunkPort) :
    ((s.linkUp p).trunk p).link = { (s.trunk p).link with up := true } := by
  have up : (((s.onLink p (fun l => { l with up := true })).chosen).trunk p).link = { (s.trunk p).link with up := true } :=
    ((Work.chosen (F := []) _).same (.link p) (by simp)).trans (s.trunk_onLink_same p _)
  have raised := fun u : State => ((u.still_raiseEvent .linkUp (some (portOf p)) none).work (F := [])).same (.link p) (by simp)
  have resumed := fun u : State => (Work.resume u p).same (.link p) (by simp)
  unfold State.linkUp
  dsimp only
  split
  · exact ((resumed _).trans (raised _)).trans up
  · exact ((raised _).trans (resumed _)).trans up

theorem State.linkDown_link (s : State) (p : TrunkPort) (b : Bool) (f : State → State)
    (h : ∀ u, Work [.rx p] u (f u)) : ((s.linkDown p b f).trunk p).link = { up := false, run := 0, silence := b } := by
  have down : (((s.onLink p (fun l => { l with up := false, run := 0, silence := b })).chosen).trunk p).link =
      { up := false, run := 0, silence := b } :=
    ((Work.chosen (F := []) _).same (.link p) (by simp)).trans (s.trunk_onLink_same p _)
  have raised := fun u : State =>
    ((u.still_raiseEvent .linkDown (some (portOf p)) none).work (F := [])).same (.link p) (by simp)
  have blocks := fun u : State => (((h u).mono (G := [.rx p, .tx p]) (by simp)).trans
    (((Work.suspend (f u) p).trans (Work.flushDown _ p)).mono (by simp))).same (.link p) (by simp)
  unfold State.linkDown
  dsimp only
  split
  · exact ((blocks _).trans (raised _)).trans down
  · exact ((raised _).trans (blocks _)).trans down

/-- The link of a port that hears a valid symbol, its receiver or transmitter taking it as `f`. -/
theorem State.hear_link (s : State) (p : TrunkPort) (f : State → State) (hf : ∀ u, Work F u (f u)) (hF : .link p ∉ F)
    (on : s.enabled p = true) : ((s.hear p f).trunk p).link =
      if (s.trunk p).link.heard.runComplete then { (s.trunk p).link.heard with up := true } else (s.trunk p).link.heard := by
  have heard := s.trunk_onLink_same p Link.heard
  have chosen := fun u : State => (Work.chosen (F := []) u).same (.link p) (by simp)
  have taken := fun u => (hf u).same (.link p) hF
  unfold State.hear
  rw [if_pos on]
  dsimp only
  rw [heard]
  split
  · split
    · exact (taken _).trans (by rw [State.linkUp_link, chosen, heard])
    · rw [State.linkUp_link]
      exact congrArg (fun l : Link => { l with up := true }) (((taken _).trans (chosen _)).trans heard)
  · exact (taken _).trans heard

/-! ### The links of both ports -/

/-- Links stay sound where only one port's may change, and that one fits. -/
theorem linksSound_of_work (w : Work F s t) (p : TrunkPort) (hp : .params ∉ F) (hF : ∀ q, q ≠ p → .link q ∉ F)
    (hl : Link.fits (t.trunk p).link (s.enabled p)) (h : s.linksSound = true) : t.linksSound = true := by
  refine t.linksSound_iff.mpr fun q => ?_
  rw [State.enabled_of_params _ (w.same .params hp)]
  by_cases hq : q = p
  · exact hq ▸ hl
  · have e : (t.trunk q).link = (s.trunk q).link := w.same (.link q) (hF q hq)
    rw [e]
    exact s.linksSound_iff.mp h q

/-- Work that neither changes a parameter nor a link. -/
theorem linksSound_of_same (w : Work F s t) (hp : .params ∉ F) (hF : ∀ q, .link q ∉ F) (h : s.linksSound = true) :
    t.linksSound = true := by
  refine linksSound_of_work w .a hp (fun q _ => hF q) ?_ h
  have e : (t.trunk .a).link = (s.trunk .a).link := w.same (.link .a) (hF .a)
  rw [e]
  exact s.linksSound_iff.mp h .a

theorem linksSound_hear (p : TrunkPort) (f : State → State) (hf : ∀ u, Work F u (f u)) (hp : .params ∉ F)
    (hF : ∀ q, .link q ∉ F) (h : s.linksSound = true) : (s.hear p f).linksSound = true := by
  refine linksSound_of_work (Work.hear s p f hf) p (by simp [hp]) (fun q hq => by simp [hq, hF q]) ?_ h
  have k := s.linksSound_iff.mp h p
  cases on : s.enabled p
  · rw [State.hear_disabled on]
    exact on ▸ k
  · rw [State.hear_link s p f hf (hF p) on]
    exact Link.fits_heard _ (on ▸ k)

theorem linksSound_hearError (p : TrunkPort) (h : s.linksSound = true) :
    (s.hearError p (fun t => t.takeError p)).linksSound = true := by
  refine linksSound_of_work (Work.hearError s p) p (by simp) (fun q hq => by simp [hq]) ?_ h
  obtain ⟨ks, kt, ku⟩ := s.linksSound_iff.mp h p
  unfold State.hearError
  split
  · have e := ((Work.takeError (s.onLink p (fun l => { l with run := if l.up then l.run else 0 })) p).same (.link p)
      (by simp)).trans (s.trunk_onLink_same p _)
    rw [e]
    refine ⟨?_, kt, ku⟩
    simp only [Link.sound, Bool.and_eq_true, Bool.or_eq_true, decide_eq_true_eq] at ks ⊢
    split
    · exact ks
    · exact ⟨Nat.zero_le _, .inr (by decide)⟩
  · exact ⟨ks, kt, ku⟩

theorem linksSound_silence (p : TrunkPort) (h : s.linksSound = true) : (s.silence p).linksSound = true := by
  refine linksSound_of_work (Work.silence s p) p (by simp) (fun q hq => by simp [hq]) ?_ h
  have k := s.linksSound_iff.mp h p
  unfold State.silence
  split
  · next hc =>
    have on : s.enabled p = true := (Bool.and_eq_true _ _ ▸ hc).1
    split
    · rw [State.linkDown_link s p true _ (fun u => .loseFrame u p), on]
      exact Link.fits_down true
    · next hu =>
      rw [State.trunk_onLink_same, on, Bool.eq_false_of_not_eq_true hu]
      exact Link.fits_down true
  · exact k

/-! ### Commands of a request -/

theorem linksSound_answer {e : Execution} {c : Cmd} {rest : List Cmd} {r : CmdResult} {data : List Byte}
    {reset : Option ResetScope} (h : s.linksSound = true) : (s.answerCmd e c rest r data reset).linksSound = true :=
  linksSound_of_same (Work.answerCmd s e c rest r data reset) (by simp) (by simp) h

/-- A promise that every answer keeps, and the body where it passes, the command taken keeps. -/
theorem runCommand_keeps {P : State → Prop} (takes : Cmd → Bool) (body : Call → State → Verdict)
    (ha : ∀ u e c rest r data reset, P u → P (u.answerCmd e c rest r data reset))
    (hb : ∀ call c data reset t, takes c = true → c.args = call.args → body call s = .pass data reset t → P t)
    (h : P s) : P (runCommand takes body s) := by
  rcases runCommand_cases takes body s with e | ⟨x, c, rest, r, -, -, e⟩ | ⟨x, c, rest, data, reset, t, -, ht, hp, e⟩ <;>
    rw [e]
  · exact h
  · exact ha s x c rest r [] none h
  · exact ha t x c rest .ok data reset (hb _ c data reset t ht rfl hp)

theorem setParam_portEnableA (q : Params) (n v : Nat) (h : n ≠ 17) : (setParam q n v).portEnableA = q.portEnableA := by
  unfold setParam
  split <;> first | rfl | exact absurd rfl h

theorem setParam_portEnableB (q : Params) (n v : Nat) (h : n ≠ 18) : (setParam q n v).portEnableB = q.portEnableB := by
  unfold setParam
  split <;> first | rfl | exact absurd rfl h

theorem namesEnable_iff (c : Cmd) :
    namesEnable c = true ↔ (byteAt c.args 0).toNat = 17 ∨ (byteAt c.args 0).toNat = 18 := by
  have e : ∀ n : Byte, byteAt c.args 0 = n ↔ (byteAt c.args 0).toNat = n.toNat := fun n => BitVec.toNat_inj.symm
  rw [namesEnable, Bool.or_eq_true, beq_iff_eq, beq_iff_eq, e, e]
  rfl

theorem linksSound_writeParam {n v : Nat} (ha : n ≠ 17) (hb : n ≠ 18) (h : s.linksSound = true) :
    (s.writeParam n v).linksSound = true := by
  unfold State.linksSound State.writeParam at *
  dsimp only
  rw [setParam_portEnableA _ _ _ ha, setParam_portEnableB _ _ _ hb]
  exact h

/-- The trunk port a PORT_ENABLE parameter is of. -/
theorem State.enabled_writeParam (s : State) {n v : Nat} {p : TrunkPort} (hn : n = 17 ∨ n = 18)
    (hp : p = if n = 17 then .a else .b) (q : TrunkPort) :
    (s.writeParam n v).enabled q = if q = p then v == 1 else s.enabled q := by
  rcases hn with rfl | rfl <;> subst hp <;> cases q <;> rfl

theorem linksSound_writeEnable {n v : Nat} (hn : n = 17 ∨ n = 18) (h : s.linksSound = true) :
    (s.writeEnable n v).linksSound = true := by
  unfold State.writeEnable
  have en := fun q => s.enabled_writeParam (v := v) hn (p := if n = 17 then .a else .b) rfl q
  generalize (if n = 17 then TrunkPort.a else .b) = p at en ⊢
  dsimp only
  have k := s.linksSound_iff.mp h
  have written : ∀ u, Work [.link p, .tx p, .rx p] (s.writeParam n v) u →
      Link.fits (u.trunk p).link (v == 1) → u.linksSound = true := by
    intro u w hl
    refine u.linksSound_iff.mpr fun q => ?_
    rw [State.enabled_of_params _ (w.same .params (by simp)), en]
    split
    · next hq => exact hq ▸ hl
    · next hq =>
      have e : (u.trunk q).link = (s.trunk q).link := w.same (.link q) (by simp [hq])
      exact e ▸ k q
  split
  · exact h
  · split
    · next h1 =>
      refine written _ (Work.switchOn _ p) ?_
      rw [State.switchOn, State.trunk_onLink_same, beq_iff_eq.mpr h1]
      exact Link.fits_down true
    · next h1 =>
      refine written _ (Work.switchOff _ p) ?_
      rw [beq_eq_false_iff_ne.mpr h1]
      unfold State.switchOff
      split
      · rw [State.linkDown_link _ p false _ (fun u => .disableRx u p)]
        exact Link.fits_down false
      · next hu =>
        have e := ((Work.disableRx ((s.writeParam n v).onLink p (fun l => { l with run := 0, silence := false })) p).same
          (.link p) (by simp)).trans (State.trunk_onLink_same _ p _)
        rw [e, Bool.eq_false_of_not_eq_true hu]
        exact Link.fits_down false

/-! ### Every step -/

/-- A reset that is performed keeps the links sound: a traffic reset leaves them alone, a full one resets them. -/
theorem linksSound_performed (p : Performed u t) (h : u.linksSound = true) : t.linksSound = true := by
  rcases p.cases with e | ⟨w, hp, e⟩ | ⟨-, e⟩ <;> rw [e]
  · exact h
  · exact linksSound_of_same (Work.trafficReset u w hp) (by simp) (by simp) h
  · rfl

theorem linksSound_exec (c : Instr) (s t : State) (h : s.linksSound = true) (he : exec c s = .next t) :
    t.linksSound = true := by
  have other : c ≠ .powerOnReset → .params ∉ footprint c → (∀ q, .link q ∉ footprint c) → t.linksSound = true := by
    intro hc hp hl
    obtain ⟨u, w, p, -⟩ := exec_next_work hc he
    exact linksSound_performed p (linksSound_of_same w hp hl h)
  have settled : ∀ u : State, exec c s = .next u.settle → u.linksSound = true → t.linksSound = true := by
    intro u e hu
    have ht : u.settle = t := Host.Outcome.next.inj (e.symm.trans he)
    exact linksSound_performed (ht ▸ u.settle_performed) hu
  have plain : ∀ u : State, exec c s = .next u → u.linksSound = true → t.linksSound = true := by
    intro u e hu
    have ht : u = t := Host.Outcome.next.inj (e.symm.trans he)
    exact ht ▸ hu
  cases c
  case powerOnReset => exact plain _ rfl rfl
  case sofReceived p => exact settled _ rfl (linksSound_hear (F := [.rx p]) p _ (fun u => .takeSof u p) (by simp) (by simp) h)
  case dataByteReceived p b =>
    exact settled _ rfl (linksSound_hear (F := [.rx p, .mem]) p _ (fun u => .takeData u p b) (by simp) (by simp) h)
  case eofReceived p =>
    exact settled _ rfl (linksSound_hear (F := [.rx p, .steer]) p _ (fun u => .takeEof u p) (by simp) (by simp) h)
  case codeErrorReceived p => exact plain _ rfl (linksSound_hearError p h)
  case ackReceived p q =>
    exact settled _ rfl (linksSound_hear (F := [.tx p]) p _ (fun u => .takeAck u p q) (by simp) (by simp) h)
  case nakReceived p q why =>
    exact settled _ rfl (linksSound_hear (F := [.tx p]) p _ (fun u => .takeNak u p q why) (by simp) (by simp) h)
  case helloReceived p =>
    exact settled _ rfl (linksSound_hear (F := [.rx p]) p _ (fun u => .takeHello u p) (by simp) (by simp) h)
  case idleReceived p =>
    exact settled _ rfl (linksSound_hear (F := []) p _ (fun u => .refl _ u) (by simp) (by simp) h)
  case silenceTimeout p => exact settled _ rfl (linksSound_silence p h)
  case writeParam =>
    refine plain (runCommand (fun c => hasCode 0x0F c && !namesEnable c && !namesMask c) (writeChecked State.writeParam) s) rfl
        (runCommand_keeps (P := fun u => u.linksSound = true) _ _ (fun _ _ _ _ _ _ _ => linksSound_answer) ?_ h)
    intro call c data reset t ht ha hb
    rw [(writeChecked_pass hb).1, Call.arg_eq ha]
    simp only [Bool.and_eq_true, Bool.not_eq_true'] at ht
    have hn := mt (namesEnable_iff c).mpr (by simp [ht.1.2])
    rw [not_or] at hn
    exact linksSound_writeParam hn.1 hn.2 h
  case portEnableWrite =>
    refine plain (runCommand (fun c => hasCode 0x0F c && namesEnable c) (writeChecked State.writeEnable) s) rfl
        (runCommand_keeps (P := fun u => u.linksSound = true) _ _ (fun _ _ _ _ _ _ _ => linksSound_answer) ?_ h)
    intro call c data reset t ht ha hb
    rw [(writeChecked_pass hb).1, Call.arg_eq ha]
    exact linksSound_writeEnable ((namesEnable_iff c).mp (Bool.and_eq_true _ _ ▸ ht).2) h
  case attentionMaskWrite =>
    refine plain _ rfl (runCommand_keeps (P := fun u => u.linksSound = true) _ _ (fun _ _ _ _ _ _ _ => linksSound_answer) ?_ h)
    intro call c data reset t ht ha hb
    simp only [namesMask, Bool.and_eq_true, beq_iff_eq] at ht
    rw [(writeChecked_pass hb).1, Call.arg_eq ha, ht.2]
    exact linksSound_writeParam (n := 21) (by decide) (by decide) h
  all_goals exact other (by simp) (by simp [footprint]) (by simp [footprint])

/-- Settles O9. -/
theorem stepKeepsReceiversAndLinksSound : Obligations.StepKeepsReceiversAndLinksSound :=
  ⟨fun _ _ hs h => Promise.receivers.step hs h, fun _ _ hs h => step_keeps (fun _ _ => id) linksSound_exec hs h⟩

end Sys2Proof.Machine

end

section
/-! What every step keeps of the edit session: no swap is requested but while its owner's COMMIT is in execution. -/

namespace Sys2Proof.Machine

variable {s t u : State} {F : List Part}

/-- A session with no swap requested (R131): CLOSED with neither owner nor timer, or open with an owner. -/
def Session.plain (x : Session) : Prop :=
  x.swapRequested = false ∧ x.swapTaken = false ∧
    (x.state = .closed → x.owner = none ∧ x.timer = none) ∧ (x.state ≠ .closed → x.owner.isSome = true)

theorem Session.plain.sound (h : s.session.plain) : s.sessionSound = true := by
  obtain ⟨hr, ht, hc, ho⟩ := h
  unfold State.sessionSound
  dsimp only
  cases hs : s.session.state
  case closed => simp [hr, ht, hc hs]
  all_goals simp [hr, ht, ho (by rw [hs]; decide)]

/-- A sound session in which no swap is requested is a plain one. -/
theorem State.plain_of_sound (h : s.sessionSound = true) (hr : s.session.swapRequested = false) : s.session.plain := by
  unfold State.sessionSound at h
  dsimp only at h
  simp only [hr, Bool.and_eq_true, Bool.or_false, Bool.not_eq_true'] at h
  obtain ⟨⟨h, -⟩, ht⟩ := h
  refine ⟨hr, ht, fun hs => ?_, fun hs => ?_⟩
  · simp only [hs, Bool.and_eq_true, Option.isNone_iff_eq_none] at h
    exact h.1
  · split at h
    · next hc => exact absurd hc hs
    · exact h

/-- What a requested swap says in a sound session (R141). -/
theorem State.requested_of_sound (h : s.sessionSound = true) (hr : s.session.swapRequested = true) :
    s.session.state = .opened ∧ s.session.timer = none ∧ s.atCommit s.session.owner = true ∧
      s.session.owner.isSome = true := by
  unfold State.sessionSound at h
  dsimp only at h
  simp only [hr, Bool.and_eq_true, Bool.not_true, Bool.false_or, decide_eq_true_eq, Option.isNone_iff_eq_none] at h
  obtain ⟨⟨h, ⟨ho, ht⟩, ha⟩, -⟩ := h
  exact ⟨ho, ht, ha, by rw [ho] at h; exact h⟩

theorem State.plain_of_not_atCommit (h : s.sessionSound = true) (hn : s.atCommit s.session.owner = false) :
    s.session.plain := by
  refine State.plain_of_sound h ?_
  cases hr : s.session.swapRequested
  · rfl
  · have ha := (State.requested_of_sound h hr).2.2.1
    exact absurd ha (by simp [hn])

theorem State.sessionSound_of_same (hs : t.session = s.session) (hc : t.current = s.current) (h : s.sessionSound = true) :
    t.sessionSound = true := by
  unfold State.sessionSound State.atCommit at *
  rw [hs, hc]
  exact h

theorem Session.plain_close (x : Session) : x.close.plain := by
  simp [Session.plain, Session.close]

/-- An answer leaves a plain session plain: it restarts at most its timer. -/
theorem Session.plain.answer {e : Execution} {c : Cmd} {rest : List Cmd} {r : CmdResult} {data : List Byte}
    {reset : Option ResetScope} (h : s.session.plain) : (s.answerCmd e c rest r data reset).session.plain := by
  obtain ⟨x, he, hst, how, -, hr, ht, hx⟩ := s.answerCmd_eq e c rest r data reset
  obtain ⟨k1, k2, k3, k4⟩ := h
  have hsx : (s.answerCmd e c rest r data reset).session = x := by rw [he]
  rw [hsx]
  refine ⟨hr.trans k1, ht.trans k2, fun hc => ?_, fun hn => ?_⟩
  · rw [hst] at hc
    rw [hx (.inl hc)]
    exact k3 hc
  · rw [hst] at hn
    rw [how]
    exact k4 hn

/-! ### Commands of a request -/

/-- Where the executor stands at another command than a COMMIT, a sound session is plain. -/
theorem State.plain_of_current {e : Execution} {c : Cmd} {rest : List Cmd} (h : s.sessionSound = true)
    (hc : s.current = some (e, c, rest)) (hn : hasCode 0x09 c = false) : s.session.plain :=
  State.plain_of_not_atCommit h (by
    unfold State.atCommit
    rw [hc]
    show (hasCode 0x09 c && _) = false
    rw [hn, Bool.false_and])

theorem hasCode_other {c : Cmd} {a b : Byte} (h : hasCode a c = true) (hab : a ≠ b) : hasCode b c = false := by
  unfold hasCode at *
  rw [beq_iff_eq] at h
  rw [h]
  exact beq_eq_false_iff_ne.mpr hab

/-- A row of a command other than COMMIT keeps the session sound where its body keeps a plain one plain. -/
theorem sessionSound_runCommand (takes : Cmd → Bool) (body : Call → State → Verdict)
    (ht : ∀ c, takes c = true → hasCode 0x09 c = false)
    (hb : ∀ call data reset t, s.session.plain → body call s = .pass data reset t → t.session.plain)
    (h : s.sessionSound = true) : (runCommand takes body s).sessionSound = true := by
  rcases runCommand_cases takes body s with e | ⟨x, c, rest, r, hc, hk, e⟩ | ⟨x, c, rest, data, reset, t, hc, hk, hp, e⟩ <;>
    rw [e]
  · exact h
  · exact (State.plain_of_current h hc.current (ht c hk)).answer.sound
  · exact (hb _ data reset t (State.plain_of_current h hc.current (ht c hk)) hp).answer.sound

/-- A body that leaves the session alone keeps it plain. -/
theorem Session.plain.of_work (w : Work F s t) (hF : .session ∉ F) (h : s.session.plain) : t.session.plain :=
  (show t.session = s.session from w.same .session hF) ▸ h

/-- The state and owner a session check lets through (R136). -/
theorem State.sessionCheck_none {r : Station} {w : Bool} (h : s.sessionCheck r w = none) :
    s.session.state ≠ .closed ∧ s.session.owner = some r ∧ (w = true → s.session.state = .opened) := by
  unfold State.sessionCheck at h
  cases hs : s.session.state <;> simp only [hs] at h
  · cases h
  · split at h
    · next ho => exact ⟨by decide, ho, fun _ => rfl⟩
    · cases h
  · split at h
    · next ho =>
      split at h
      · cases h
      · next hw => exact ⟨by decide, ho, fun k => absurd k hw⟩
    · cases h

theorem plain_bodyOpenEdit {c : Call} {data : List Byte} {reset : Option ResetScope} (h : s.session.plain)
    (hb : bodyOpenEdit c s = .pass data reset t) : t.session.plain := by
  unfold bodyOpenEdit at hb
  split at hb
  · cases hb
    exact ⟨h.1, h.2.1, fun hc => absurd (show SessionState.opened = .closed from hc) (by decide), fun _ => rfl⟩
  · split at hb
    · cases hb; exact h
    · cases hb

theorem plain_bodyCloseEdit {c : Call} {data : List Byte} {reset : Option ResetScope}
    (hb : bodyCloseEdit c s = .pass data reset t) : t.session.plain := by
  unfold bodyCloseEdit at hb
  split at hb
  · cases hb
  · cases hb; exact s.session.plain_close

theorem plain_bodySync {c : Call} {data : List Byte} {reset : Option ResetScope} (h : s.session.plain)
    (hb : bodySync c s = .pass data reset t) : t.session.plain := by
  unfold bodySync at hb
  split at hb
  · cases hb
  · next hk =>
    cases hb
    exact ⟨h.1, h.2.1, fun hc => absurd (show SessionState.syncing = .closed from hc) (by decide),
      fun _ => h.2.2.2 (State.sessionCheck_none hk).1⟩

theorem sessionSound_takeCommit (h : s.sessionSound = true) : s.takeCommit.sessionSound = true := by
  unfold State.takeCommit
  split
  · exact h
  · next e c rest hc =>
    split
    · next hk =>
      rw [Bool.and_eq_true, Bool.not_eq_true'] at hk
      split
      · exact (State.plain_of_sound h hk.2).answer.sound
      · next hv =>
        have hb := verdictOf_pass hv
        unfold bodyCommit at hb
        split at hb
        · cases hb
        · next hn =>
          obtain ⟨-, how, hop⟩ := State.sessionCheck_none hn
          cases hb
          have ha : s.atCommit s.session.owner = true := by
            unfold State.atCommit
            rw [hc]
            show (hasCode 0x09 c && decide (s.session.owner = some e.requester)) = true
            rw [hk.1, how]
            simp
          unfold State.sessionSound
          have ha' : ({ s with session := { s.session with timer := none, swapRequested := true, swapTaken := false } } :
            State).atCommit s.session.owner = true := ha
          simp [hop rfl, how] at ha' ⊢
          exact ha'
    · exact h

theorem sessionSound_completeCommit (h : s.sessionSound = true) : s.completeCommit.sessionSound = true := by
  unfold State.completeCommit
  split
  · exact h
  · split
    · refine (Session.plain.answer ?_).sound
      exact s.session.plain_close.of_work (s := s.closeSession) ((State.still_raiseEvent _ _ _ _).work (F := [])) (by simp)
    · exact h

/-! ### The other commands of a session -/

theorem sessionSound_swapBanks (h : s.sessionSound = true) (hr : s.session.swapRequested = true) :
    s.swapBanks.sessionSound = true := by
  obtain ⟨ho, ht, ha, hs⟩ := State.requested_of_sound h hr
  unfold State.sessionSound
  have e : s.swapBanks.atCommit s.session.owner = true := ha
  simp [State.swapBanks, ho, ht, hs, hr] at e ⊢
  exact e

theorem sessionSound_copyStep (h : s.sessionSound = true) (hs : s.session.state = .syncing) :
    s.copyStep.sessionSound = true := by
  have hr : s.session.swapRequested = false := by
    cases hr : s.session.swapRequested
    · rfl
    · exact absurd ((State.requested_of_sound h hr).1.symm.trans hs) (by decide)
  obtain ⟨k1, k2, -, k4⟩ := State.plain_of_sound h hr
  refine Session.plain.sound ⟨?_, ?_, ?_, ?_⟩
  · simpa [State.copyStep] using k1
  · simpa [State.copyStep] using k2
  · intro hc
    simp only [State.copyStep] at hc
    split at hc <;> cases hc
  · intro _
    simpa [State.copyStep] using k4 (by rw [hs]; decide)

/-- A PORT_ENABLE write leaves the session alone, whatever number it is given. -/
theorem State.writeEnable_session (s : State) (n v : Nat) : (s.writeEnable n v).session = s.session := by
  unfold State.writeEnable
  generalize (if n = 17 then TrunkPort.a else .b) = p
  dsimp only
  split
  · rfl
  · split
    · exact (Work.switchOn (s.writeParam n v) p).same .session (by simp)
    · exact (Work.switchOff (s.writeParam n v) p).same .session (by simp)

/-! ### Every step -/

theorem sessionSound_performed (p : Performed u t) (h : u.sessionSound = true) : t.sessionSound = true := by
  rcases p.cases with e | ⟨w, hp, e⟩ | ⟨-, e⟩ <;> rw [e]
  · exact h
  · have k := Work.trafficReset u w hp
    exact State.sessionSound_of_same (k.same .session (by simp)) (k.same .current (by simp)) h
  · rfl

/-- The executor stands at no command: nothing is in execution, or every command of it is answered. -/
theorem State.plain_of_no_current (h : s.sessionSound = true) (hc : s.current = none) : s.session.plain :=
  State.plain_of_not_atCommit h (by simp [State.atCommit, hc])

theorem sessionSound_exec (c : Instr) (s t : State) (h : s.sessionSound = true) (he : exec c s = .next t) :
    t.sessionSound = true := by
  have other : c ≠ .powerOnReset → .session ∉ footprint c → .current ∉ footprint c → t.sessionSound = true := by
    intro hc hp hl
    obtain ⟨u, w, p, -⟩ := exec_next_work hc he
    exact sessionSound_performed p (State.sessionSound_of_same (w.same .session hp) (w.same .current hl) h)
  have plain : ∀ u : State, exec c s = .next u → u.sessionSound = true → t.sessionSound = true := by
    intro u e hu
    have ht : u = t := Host.Outcome.next.inj (e.symm.trans he)
    exact ht ▸ hu
  have row : ∀ takes body, exec c s = .next (runCommand takes body s) → (∀ c, takes c = true → hasCode 0x09 c = false) →
      (∀ call data reset v, s.session.plain → body call s = .pass data reset v → v.session.plain) →
      t.sessionSound = true := fun takes body e ht hb => plain _ e (sessionSound_runCommand takes body ht hb h)
  have coded : ∀ (b : Byte) (f : Cmd → Bool), b ≠ 0x09 → ∀ c, (hasCode b c && f c) = true → hasCode 0x09 c = false :=
    fun b f hb c k => hasCode_other (Bool.and_eq_true _ _ ▸ k).1 hb
  have coded2 : ∀ (b : Byte) (f g : Cmd → Bool), b ≠ 0x09 → ∀ c, (hasCode b c && f c && g c) = true → hasCode 0x09 c = false :=
    fun b f g hb c k => coded b f hb c (Bool.and_eq_true _ _ ▸ k).1
  cases c
  case powerOnReset => exact plain _ rfl rfl
  case bankSwap =>
    by_cases hb : (s.session.swapRequested && !s.session.swapTaken) = true
    · exact plain s.swapBanks (if_pos hb) (sessionSound_swapBanks h (Bool.and_eq_true _ _ ▸ hb).1)
    · exact plain s (if_neg hb) h
  case commitComplete => exact plain _ rfl (sessionSound_completeCommit h)
  case sessionTimerExpiry =>
    by_cases hb : s.session.state ≠ .closed ∧ s.session.timer.isSome = true
    · refine plain _ (if_pos hb) (Session.plain.sound ?_)
      exact s.session.plain_close.of_work (s := s.closeSession) ((State.still_raiseEvent _ _ _ _).work (F := [])) (by simp)
    · exact plain s (if_neg hb) h
  case syncCopyStep =>
    by_cases hb : s.session.state = .syncing
    · exact plain _ (if_pos hb) (sessionSound_copyStep h hb)
    · exact plain s (if_neg hb) h
  case commit => exact plain _ rfl (sessionSound_takeCommit h)
  case requestStart =>
    cases hx : s.mgmt.executor with
    | idle =>
      obtain ⟨u, w, p, -⟩ := exec_next_work (by simp) he
      have k := State.plain_of_no_current h (by simp [State.current, hx])
      exact sessionSound_performed p (k.of_work w (by simp [footprint])).sound
    | executing e => exact plain s (by simp [exec, execRequestStart, hx]) h
    | resetPending r => exact plain s (by simp [exec, execRequestStart, hx]) h
  case responseHandover =>
    cases hc : s.current with
    | none =>
      obtain ⟨u, w, p, -⟩ := exec_next_work (by simp) he
      exact sessionSound_performed p ((State.plain_of_no_current h hc).of_work w (by simp [footprint])).sound
    | some x =>
      refine plain s ?_ h
      unfold State.current at hc
      split at hc
      · next e hx =>
        split at hc
        · next ht => simp [exec, execResponseHandover, hx, ht]
        · cases hc
      · cases hc
  case info =>
    exact row _ _ rfl (fun _ k => hasCode_other k (by decide)) fun _ _ _ _ k p =>
      k.of_work (F := []) (.of_reads p) (by simp)
  case readSteer =>
    exact row _ _ rfl (fun _ k => hasCode_other k (by decide)) fun _ _ _ _ k p => k.of_work (F := []) (.bodyReadBank p) (by simp)
  case writeSteer =>
    exact row _ _ rfl (fun _ k => hasCode_other k (by decide)) fun _ _ _ _ k p => k.of_work (.bodyWriteSteer p) (by simp)
  case readChmap =>
    exact row _ _ rfl (fun _ k => hasCode_other k (by decide)) fun _ _ _ _ k p => k.of_work (F := []) (.bodyReadBank p) (by simp)
  case writeChmap =>
    exact row _ _ rfl (fun _ k => hasCode_other k (by decide)) fun _ _ _ _ k p => k.of_work (.bodyWriteChmap p) (by simp)
  case openEdit => exact row _ _ rfl (fun _ k => hasCode_other k (by decide)) fun _ _ _ _ => plain_bodyOpenEdit
  case closeEdit => exact row _ _ rfl (fun _ k => hasCode_other k (by decide)) fun _ _ _ _ _ => plain_bodyCloseEdit
  case sync => exact row _ _ rfl (fun _ k => hasCode_other k (by decide)) fun _ _ _ _ => plain_bodySync
  case editStatus =>
    exact row _ _ rfl (fun _ k => hasCode_other k (by decide)) fun _ _ _ _ k p => k.of_work (F := []) (.of_reads p) (by simp)
  case readMeter =>
    exact row _ _ rfl (fun _ k => hasCode_other k (by decide)) fun _ _ _ _ k p => k.of_work (F := []) (.bodyReadMeter p) (by simp)
  case writeMeter =>
    exact row _ _ rfl (fun _ k => hasCode_other k (by decide)) fun _ _ _ _ k p => k.of_work (.bodyWriteMeter p) (by simp)
  case readCounters =>
    exact row _ _ rfl (coded _ _ (by decide)) fun _ _ _ _ k p => k.of_work (Work.bodyReadCounters p).1 (by simp)
  case readCountersClear =>
    exact row _ _ rfl (coded _ _ (by decide)) fun _ _ _ _ k p => k.of_work (Work.bodyReadCounters p).1 (by simp)
  case readParam =>
    exact row _ _ rfl (fun _ k => hasCode_other k (by decide)) fun _ _ _ _ k p => k.of_work (F := []) (.bodyReadParam p) (by simp)
  case writeParam =>
    refine row _ _ rfl (coded2 0x0F _ _ (by decide)) fun _ _ _ v k p => ?_
    rw [(writeChecked_pass p).1]
    exact k
  case portEnableWrite =>
    refine row (fun c => hasCode 0x0F c && namesEnable c) _ rfl (coded _ _ (by decide)) fun _ _ _ v k p => ?_
    rw [(writeChecked_pass p).1]
    exact (s.writeEnable_session _ _).symm ▸ k
  case attentionMaskWrite =>
    refine row (fun c => hasCode 0x0F c && namesMask c) _ rfl (coded _ _ (by decide)) fun _ _ _ v k p => ?_
    rw [(writeChecked_pass p).1]
    exact k
  case releasePortRetry =>
    exact row _ _ rfl (coded2 0x10 _ _ (by decide)) fun _ _ _ _ k p => k.of_work (.bodyRelease p) (by simp)
  case releasePortDrop =>
    exact row _ _ rfl (coded _ _ (by decide)) fun _ _ _ _ k p => k.of_work (.bodyRelease p) (by simp)
  case releasePortFlush =>
    exact row _ _ rfl (coded _ _ (by decide)) fun _ _ _ _ k p => k.of_work (.bodyRelease p) (by simp)
  case readEvents =>
    exact row _ _ rfl (fun _ k => hasCode_other k (by decide)) fun _ _ _ _ k p =>
      k.of_work (F := []) (.bodyReadEvents p) (by simp)
  case resetNode =>
    exact row _ _ rfl (fun _ k => hasCode_other k (by decide)) fun _ _ _ _ k p => k.of_work (F := []) (.bodyResetNode p) (by simp)
  all_goals exact other (by simp) (by simp [footprint]) (by simp [footprint])

/-- Settles O5. -/
theorem stepKeepsMetersBanksStationSession : Obligations.StepKeepsMetersBanksStationSession :=
  ⟨fun _ _ hm hb h => ⟨Promise.meters.step hm h, Promise.banks.step hb h⟩, fun _ _ hs h => Promise.numbering.step hs h,
    fun _ _ hs h => step_keeps (P := fun u => u.sessionSound = true) (fun _ _ => id) sessionSound_exec hs h⟩

end Sys2Proof.Machine

end

section
/-! What a command leaves alone: no full reset happens but where one is pending or recorded, and no reset at all where none
is. -/

namespace Sys2Proof.Machine

variable {s t u : State} {F : List Part}

/-- A command that may be followed by a reset changes no management engine, the hand-over of a response apart. -/
theorem mgmt_not_mem_of_settles {c : Instr} (h : settles c = true) (hc : c ≠ .responseHandover) : .mgmt ∉ footprint c := by
  cases c <;> simp [settles] at h <;> simp [footprint]
  exact absurd rfl hc

/-- The hand-over of an execution leaves the executor as its recorded reset says (R163). -/
theorem State.handOver_executor (s : State) (e : Execution) :
    ∃ w, (s.handOver e).mgmt.executor = afterExecution e.reset w := ⟨_, rfl⟩

/-- A RESPONSE_HANDOVER does nothing, or hands over the execution it stands at. -/
theorem exec_responseHandover (s : State) : exec .responseHandover s = .next s ∨
    ∃ e, s.mgmt.executor = .executing e ∧ exec .responseHandover s = .next (s.handOver e).settle := by
  show execResponseHandover s = _ ∨ ∃ e, _ ∧ execResponseHandover s = _
  unfold execResponseHandover
  split
  · next e hx =>
    split
    · exact .inr ⟨e, hx, rfl⟩
    · exact .inl rfl
  · exact .inl rfl

/-- Where no full reset is pending or recorded, a command is work within its footprint and at most a traffic reset. -/
theorem exec_no_full {c : Instr} (hc : c ≠ .powerOnReset) (hf : s.fullResetPending = false)
    (hr : ∀ e, s.mgmt.executor = .executing e → e.reset ≠ some .full) (h : exec c s = .next t) :
    ∃ u, Work (footprint c) s u ∧ (t = u ∨ ∃ w, u.resetPending = true ∧ t = u.trafficReset w) := by
  have from_ : ∀ u, Work (footprint c) s u → Performed u t → u.fullResetPending = false →
      ∃ u, Work (footprint c) s u ∧ (t = u ∨ ∃ w, u.resetPending = true ∧ t = u.trafficReset w) := by
    intro u w p hn
    refine ⟨u, w, ?_⟩
    rcases p.cases with e | e | ⟨e, -⟩
    · exact .inl e
    · exact .inr e
    · exact absurd e (by simp [hn])
  by_cases hh : c = .responseHandover
  · subst hh
    rcases exec_responseHandover s with e | ⟨x, hx, e⟩
    · have ht : s = t := Host.Outcome.next.inj (e.symm.trans h)
      exact ⟨s, .refl _ s, .inl ht.symm⟩
    · have ht : (s.handOver x).settle = t := Host.Outcome.next.inj (e.symm.trans h)
      obtain ⟨w, hw⟩ := s.handOver_executor x
      refine from_ _ (Work.handOver s x) (ht ▸ State.settle_performed _) ?_
      unfold State.fullResetPending
      rw [hw]
      unfold afterExecution
      cases hs : x.reset with
      | none => rfl
      | some scope =>
        have : scope ≠ .full := fun e => hr x hx (e ▸ hs)
        simp [this]
  · obtain ⟨u, w, p, k⟩ := exec_next_work hc h
    rcases k with k | k
    · exact ⟨u, w, .inl k⟩
    · refine from_ u w p ?_
      have e : u.fullResetPending = s.fullResetPending := (w.same .mgmt (mgmt_not_mem_of_settles k hh)).2
      rw [e, hf]

/-- Where no reset is pending or recorded, a command is work within its footprint. -/
theorem exec_reset_free {c : Instr} (hc : c ≠ .powerOnReset) (hf : s.resetFree) (h : exec c s = .next t) :
    Work (footprint c) s t := by
  obtain ⟨hp, hr⟩ := hf
  by_cases hh : c = .responseHandover
  · subst hh
    rcases exec_responseHandover s with e | ⟨x, hx, e⟩
    · have ht : s = t := Host.Outcome.next.inj (e.symm.trans h)
      exact ht ▸ .refl _ s
    · have ht : (s.handOver x).settle = t := Host.Outcome.next.inj (e.symm.trans h)
      obtain ⟨w, hw⟩ := s.handOver_executor x
      rw [hr x hx] at hw
      have hs : (s.handOver x).settle = s.handOver x := by
        unfold State.settle
        rw [hw]
        rfl
      rw [← ht, hs]
      exact Work.handOver s x
  · obtain ⟨u, w, p, k⟩ := exec_next_work hc h
    rcases k with k | k
    · exact k ▸ w
    · have e : u.mgmt = s.mgmt := (w.same .mgmt (mgmt_not_mem_of_settles k hh)).1 hp
      have hpu : u.resetPending = false := (State.resetPending_of_mgmt s e).trans hp
      rcases p with rfl | ⟨r, hr, -⟩
      · exact w
      · exact absurd (State.resetPending_of_executor hr) (by simp [hpu])

/-- Settles O10. -/
theorem bankAndIdentityChangeOnlyByTheirCommands : Obligations.BankAndIdentityChangeOnlyByTheirCommands := by
  have kept : ∀ (x : Part) (c : Instr) (s t : State), x ∉ footprint c → x ∉ trafficParts → c ≠ .powerOnReset →
      s.fullResetPending = false → (∀ e, s.mgmt.executor = .executing e → e.reset ≠ some .full) → exec c s = .next t →
      x.same s t := by
    intro x c s t hx hx' hc hf hr h
    obtain ⟨u, w, e⟩ := exec_no_full hc hf hr h
    rcases e with e | ⟨v, hp, e⟩ <;> rw [e]
    · exact w.same x hx
    · exact Part.same_trans (w.same x hx) ((Work.trafficReset u v hp).same x hx')
  refine ⟨fun c s t hb hc hf hr h => ?_, fun c s t hn hc hf hr h => ?_⟩
  · refine (kept .active c s t ?_ (by simp) hc hf hr h).1
    cases c <;> simp [footprint]
    exact absurd rfl hb
  · refine kept .numbering c s t ?_ (by simp) hc hf hr h
    cases c <;> simp [footprint]
    exact absurd rfl hn

/-- A WRITE_PARAM writes no byte of a page. -/
theorem runCommand_writeParam_store (s : State) (takes : Cmd → Bool) :
    (runCommand takes (writeChecked State.writeParam) s).store = s.store := by
  have answer : ∀ (u : State) e c rest r data reset, (u.answerCmd e c rest r data reset).store = u.store := by
    intro u e c rest r data reset
    obtain ⟨x, h, -⟩ := u.answerCmd_eq e c rest r data reset
    rw [h]
  refine runCommand_keeps (P := fun u => u.store = s.store) takes _ (fun u e c rest r data reset h => ?_)
    (fun call c data reset t _ _ h => ?_) rfl
  · exact (answer u e c rest r data reset).trans h
  · rw [(writeChecked_pass h).1]
    rfl

/-- The parts of a trunk port are in the footprint of that port's commands and of four commands of a request alone. -/
theorem port_not_mem_footprint {c : Instr} {p : TrunkPort} (h : trunkPort? c ≠ some p)
    (hc : c ∉ [Instr.portEnableWrite, .releasePortRetry, .releasePortDrop, .releasePortFlush]) :
    .rx p ∉ footprint c ∧ .tx p ∉ footprint c ∧ .link p ∉ footprint c := by
  cases c <;> simp_all [footprint, trunkPort?, @eq_comm _ p]

/-- Settles O11: each part is outside the footprint of every command the statement does not name. -/
theorem commandsLeaveOtherPartsAlone : Obligations.CommandsLeaveOtherPartsAlone := by
  intro c s t hc hf h
  have w := exec_reset_free hc hf h
  refine ⟨fun k => w.same .nodeTime ?_, fun k => w.same .meters ?_, fun k => w.same .counters ?_, fun k => w.same .params ?_,
    fun k => w.same .numbering ?_, fun k => w.same .enums ?_, fun k k' => w.same .steer ?_, fun k => w.same .session ?_,
    fun k => (w.same .mgmt ?_).1 hf.1, fun p k k' => ?ports,
    fun k => w.same .egress ?_, fun hm k1 k2 k3 x => ?mem⟩
  case ports =>
    obtain ⟨hr, ht, hl⟩ := port_not_mem_footprint k k'
    exact ⟨w.same (.rx p) hr, w.same (.tx p) ht, w.same (.link p) hl⟩
  case mem =>
    by_cases hw : c = .writeParam
    · subst hw
      have e : runCommand _ (writeChecked State.writeParam) s = t := Host.Outcome.next.inj h
      rw [← e, runCommand_writeParam_store]
    · refine congrArg (Memory.read · x) ((w.same .mem ?_) hm).2
      cases c <;> simp_all [footprint]
  case refine_7 =>
    cases c <;> simp [footprint] at k k' ⊢
    next p => cases p <;> simp at k
  all_goals cases c <;> simp_all [footprint, requestCommands]

end Sys2Proof.Machine

end

section
/-! The state after reset, and the two resets that make it. -/

namespace Sys2Proof.Machine

variable {s t u : State}

theorem State.reset_freeRecs : State.reset.store.freeRecs = List.range Config.recordCount := by simp only [State.reset]

theorem State.reset_freePages : State.reset.store.freePages = List.range Config.pageCount := by simp only [State.reset]

/-- No record is used where every one is free. -/
theorem State.usedRecords_reset : State.reset.usedRecords = [] := by
  unfold State.usedRecords
  rw [State.reset_freeRecs]
  generalize List.range Config.recordCount = l
  exact List.filter_eq_nil_iff.mpr fun r hr => by simpa using hr

theorem State.storeSound_reset : State.reset.StoreSound := by
  have none_used : ∀ r, r ∉ State.reset.usedRecords := by simp [State.usedRecords_reset]
  refine { pages := ?_, free := State.reset_freeRecs ▸ ⟨List.nodup_range, fun r h => List.mem_range.mp h⟩, held := fun src => ?_,
           size := fun r h => absurd h (none_used r), refs := fun r h => absurd h (none_used r),
           placed := fun r h => absurd h (none_used r), state := fun r h => absurd h (none_used r),
           unheld := fun r _ => ⟨rfl, List.not_mem_nil, List.not_mem_nil⟩,
           single := fun q => (by cases q <;> exact List.nodup_nil), flight := fun p e h => (by cases p <;> cases h),
           transfer := fun e k h => (by cases h) }
  · have h : (List.range Config.recordCount).filter (fun r => !State.reset.store.freeRecs.contains r) = [] :=
      State.usedRecords_reset
    unfold State.pagesBalanced
    rw [h, List.flatMap_nil, List.append_nil, State.reset_freePages]
  · rw [State.usedRecords_reset]
    cases src <;> rfl

/-- Settles O3. -/
theorem resetStateIsSound : Obligations.ResetStateIsSound := ⟨by decide, State.storeSound_reset⟩

/-- Settles O12: the power-on state is the model's own; a full reset cuts the transfer before, which changes nothing but local
egress and the count of free choices. -/
theorem powerOnAndFullResetEffect : Obligations.PowerOnAndFullResetEffect := by
  refine ⟨fun s => rfl, fun s w h => ?_, fun s => ⟨fun e k h => ?_, s.cutEgress_of_not_transfer⟩⟩
  · have e : exec .resetLimitExpiry s = .next s.fullReset := by
      simp [exec, execResetLimitExpiry, h, State.performReset]
    rw [e]
    unfold State.fullReset State.poweredUp
    simp only [State.cutEgress_store, State.cutEgress_pending]
    rfl
  · rw [State.cutEgress_of_transfer h]
    refine ⟨rfl, ?_⟩
    rcases s.markedByte_cases e k with hm | hm
    · exact .inl (congrArg Egress.aborting hm)
    · exact .inr (congrArg Egress.aborting hm)

end Sys2Proof.Machine

end

section
/-! The receiver of a trunk port: what a symbol does in each reception state, heard as no 64th of a run. -/

namespace Sys2Proof.Machine

variable {s t u : State}

/-! ### A record given back, beside changes of a trunk port -/

theorem State.gaveBack.trunk {record : Option Nat} (h : s.gaveBack record t) (p : TrunkPort) : t.trunk p = s.trunk p := by
  cases record with
  | none => rw [show t = s from h]
  | some r => rw [h.1]; cases p <;> rfl

theorem State.gaveBack.mgmt {record : Option Nat} (h : s.gaveBack record t) : t.mgmt = s.mgmt := by
  cases record with
  | none => rw [show t = s from h]
  | some r => rw [h.1]

/-- A change of a trunk port beside a record given back. -/
theorem State.gaveBack.setTrunk {record : Option Nat} (h : s.gaveBack record t) (p : TrunkPort) (x : Trunk) :
    (s.setTrunk p x).gaveBack record (t.setTrunk p x) := by
  cases record with
  | none => exact congrArg (State.setTrunk · p x) h
  | some r =>
    obtain ⟨e, hi⟩ := h
    refine ⟨?_, by simpa using hi⟩
    have k := congrArg (State.setTrunk · p x) e
    cases p <;> exact k

/-! ### The operations of a receiver as one change of its port -/

theorem State.headerBad_eq (s : State) (p : TrunkPort) : s.headerBad p = s.setTrunk p { s.trunk p with
    rx := { (s.trunk p).rx with reception := .waitSof }
    stats := { (s.trunk p).stats with headerErrors := satInc (s.trunk p).stats.headerErrors } } := by
  cases p <;> rfl

/-- A reception ended with an answer and a statistic, its record abandoned, gives the record back. -/
theorem State.ended_gaveBack (s : State) (p : TrunkPort) (a : Answer) (record : Option Nat) (k : TrunkStat)
    (h : record = none ∨ s.roomy) :
    State.gaveBack
      (s.setTrunk p { s.trunk p with
        rx := { (s.trunk p).rx with reception := .waitSof, answers := (s.trunk p).rx.answers ++ [a] }
        stats := (s.trunk p).stats.on satInc k })
      record ((((s.setReception p .waitSof).answer p a).abandon record).raiseTrunk p k) := by
  have g := (State.abandon_gaveBack (s := (s.setReception p .waitSof).answer p a) record
    (h.imp_right fun k => by simpa [State.roomy] using k)).1
  have k := g.setTrunk p { s.trunk p with
    rx := { (s.trunk p).rx with reception := .waitSof, answers := (s.trunk p).rx.answers ++ [a] }
    stats := (s.trunk p).stats.on satInc k }
  rw [State.raiseTrunk_eq, g.trunk p]
  cases p <;> exact k

/-- A CHECK_FAILED frame (R51 to R54). -/
theorem State.checkFailed_gaveBack (s : State) (p : TrunkPort) (f : RxFrame) (h : f.frame = none ∨ s.roomy) :
    State.gaveBack
      (s.setTrunk p { s.trunk p with
        rx := { (s.trunk p).rx with reception := .waitSof, answers := (s.trunk p).rx.answers ++ [.nak f.seq .check] }
        stats := { (s.trunk p).stats with checkFailures := satInc (s.trunk p).stats.checkFailures } })
      f.frame (s.checkFailed p f) :=
  s.ended_gaveBack p (.nak f.seq .check) f.frame .checkFailures h

/-! ### A symbol heard plainly (R45, R95) -/

/-- The state in which a symbol heard plainly is taken: the symbol is counted. -/
abbrev State.heardAt (s : State) (p : TrunkPort) : State :=
  s.setTrunk p { s.trunk p with link := (s.trunk p).link.heard }

/-- A symbol heard plainly, that leaves no reset due. -/
theorem State.hear_settle {p : TrunkPort} {f : State → State} (h : s.hearsPlainly p) (hd : s.resetDue = false)
    (ht : f (s.heardAt p) = t) (hm : t.mgmt = s.mgmt) : (s.hear p f).settle = t := by
  rw [State.hear_plainly h, ht, s.settle_of_mgmt hm hd]

theorem State.heardAt_rx (s : State) (p : TrunkPort) : ((s.heardAt p).trunk p).rx = (s.trunk p).rx := by
  rw [State.trunk_setTrunk_same]

theorem State.heardAt_roomy (s : State) (p : TrunkPort) (h : s.roomy) : (s.heardAt p).roomy := by
  simpa [State.roomy] using h

/-- A CHECK_FAILED frame ended by a symbol heard plainly. -/
theorem State.checkFailed_heardAt (s : State) (p : TrunkPort) (f : RxFrame) (h : f.frame = none ∨ s.roomy) :
    State.gaveBack
      (s.setTrunk p { s.trunk p with
        link := (s.trunk p).link.heard
        rx := { (s.trunk p).rx with reception := .waitSof, answers := (s.trunk p).rx.answers ++ [.nak f.seq .check] }
        stats := { (s.trunk p).stats with checkFailures := satInc (s.trunk p).stats.checkFailures } })
      f.frame ((s.heardAt p).checkFailed p f) := by
  have k := (s.heardAt p).checkFailed_gaveBack p f (h.imp_right (s.heardAt_roomy p))
  simpa using k

/-! ### SOF_RECEIVED -/

/-- Settles O14. -/
theorem sofStartsFrame : Obligations.SofStartsFrame := by
  intro s p h hd
  have hx := s.heardAt_rx p
  refine ⟨fun hw => congrArg Host.Outcome.next (State.hear_settle h hd ?_ ?_),
    fun f hw => congrArg Host.Outcome.next (State.hear_settle h hd ?_ ?_), fun f hw hr => ?_⟩
  · simp [State.takeSof, hw, State.setReception_eq]
  · simp
  · simp [State.takeSof, hw, State.headerBad_eq, State.setReception_eq]
  · simp
  · have k := s.checkFailed_heardAt p f hr
    have taken : (s.heardAt p).takeSof p = ((s.heardAt p).checkFailed p f).setReception p (.header .start) := by
      unfold State.takeSof
      rw [hx]
      rcases hw with hw | hw <;> rw [hw]
    refine ⟨_, congrArg Host.Outcome.next (State.hear_settle h hd taken ?_), ?_⟩
    · simpa using k.mgmt
    · rw [State.setReception_eq, k.trunk p]
      simpa using k.setTrunk p { s.trunk p with
        link := (s.trunk p).link.heard
        rx := { (s.trunk p).rx with
          reception := .header RxFrame.start, answers := (s.trunk p).rx.answers ++ [.nak f.seq .check] }
        stats := { (s.trunk p).stats with checkFailures := satInc (s.trunk p).stats.checkFailures } }

/-! ### HELLO_RECEIVED, IDLE_RECEIVED, CODE_ERROR_RECEIVED -/

theorem State.hearError_enabled (s : State) {p : TrunkPort} (h : s.enabled p = true) (f : State → State) :
    s.hearError p f = f (s.setTrunk p { s.trunk p with
      link := { (s.trunk p).link with run := if (s.trunk p).link.up then (s.trunk p).link.run else 0 } }) := by
  rw [State.hearError, if_pos h]
  rfl

/-- Settles O15. -/
theorem helloIdleCodeErrorAndDisabledPort : Obligations.HelloIdleCodeErrorAndDisabledPort := by
  refine ⟨fun s p h hd => ⟨?_, ?_⟩, fun s p b q r hp hd c hc => ?_, fun s p l hp hl => ?_⟩
  · refine congrArg Host.Outcome.next (State.hear_settle h hd ?_ (by simp))
    simp [State.takeHello, State.onRx_eq, Link.heard]
  · exact congrArg Host.Outcome.next (State.hear_settle h hd rfl (by simp))
  · have ignored : ∀ f : State → State, (s.hear p f).settle = s := fun f => by
      rw [State.hear_disabled hp, s.settle_of_not_due hd]
    have broken : s.hearError p (fun t => t.takeError p) = s := by simp [State.hearError, hp]
    simp only [List.mem_cons, List.not_mem_nil, or_false] at hc
    rcases hc with rfl | rfl | rfl | rfl | rfl | rfl | rfl | rfl
    case inr.inr.inr.inl => exact congrArg Host.Outcome.next broken
    all_goals exact congrArg Host.Outcome.next (ignored _)
  · have e : ∀ t, State.takeError (s.setTrunk p { s.trunk p with link := l }) p = t →
        exec (.codeErrorReceived p) s = .next t := by
      intro t ht
      refine congrArg Host.Outcome.next ?_
      rw [s.hearError_enabled hp, ← hl, ht]
    refine ⟨fun hw => e _ ?_, fun f hw => e _ ?_, fun f hw => e _ ?_, fun f hw => e _ ?_⟩
    · simp [State.takeError, hw]
    · simp [State.takeError, hw, State.headerBad_eq]
    · simp [State.takeError, hw, State.setReception_eq]
    · simp [State.takeError, hw, State.setReception_eq]

/-! ### DATA_BYTE_RECEIVED -/

/-- A byte written into a record where it has an address changes that byte of the pages alone. -/
theorem State.writeFrameByte_eq (s : State) {r i a : Nat} (hi : i < (s.record r).size) (ha : (s.record r).addr i = some a)
    (b : Byte) : s.writeFrameByte r i b = { s with store := { s.store with mem := Memory.write s.store.mem a b } } := by
  unfold State.writeFrameByte
  rw [if_pos hi, ha]

/-- Settles O16. -/
theorem dataByteTaken : Obligations.DataByteTaken := by
  intro s p b h hd
  have hx := s.heardAt_rx p
  have plain : ∀ t, (s.heardAt p).takeData p b = t → t.mgmt = s.mgmt → exec (.dataByteReceived p b) s = .next t :=
    fun t ht hm => congrArg Host.Outcome.next (State.hear_settle h hd ht hm)
  refine ⟨fun hw => plain _ ?_ (by simp), fun f hw hl => plain _ ?_ (by simp), fun f r a hw hf hi ha => ?_,
    fun f hw hf => plain _ ?_ (by simp), fun f hw hl => plain _ ?_ (by simp), fun f hw hl hr => ?_⟩
  · simp [State.takeData, hw]
  · simp [State.takeData, hw, State.setReception_eq, show f.header.length + 1 < 10 by omega]
  · refine ⟨_, plain _ ?_ (by simp), rfl, by simp, fun x hx => by simp [Memory.read_write, hx]⟩
    simp only [State.takeData, hx, hw, hf, State.writeBody]
    rw [State.writeFrameByte_eq _ (by simpa [State.record] using hi) (by simpa [State.record] using ha), State.setReception_eq]
    cases p <;> rfl
  · simp [State.takeData, hw, hf, State.writeBody, State.setReception_eq]
  · simp [State.takeData, hw, hl, State.setReception_eq]
  · have k := s.checkFailed_heardAt p f hr
    refine ⟨_, plain _ ?_ (by simpa using k.mgmt), k⟩
    simp only [State.takeData, hx, hw, hl, Nat.lt_irrefl, if_false]

/-! ### EOF_RECEIVED -/

theorem RxFrame.checkGood_iff (f : RxFrame) :
    f.checkGood = true ↔ f.damaged = false ∧ f.checkBytes = beBytes 4 f.check.toNat := by
  simp [RxFrame.checkGood]

/-- Settles O18. -/
theorem eofDisposition : Obligations.EofDisposition := by
  intro s p h hd
  have hx := s.heardAt_rx p
  have plain : ∀ t, (s.heardAt p).takeEof p = t → t.mgmt = s.mgmt → exec (.eofReceived p) s = .next t :=
    fun t ht hm => congrArg Host.Outcome.next (State.hear_settle h hd ht hm)
  refine ⟨fun hw => plain _ ?_ (by simp), fun f hw => plain _ ?_ (by simp), fun f hr hw => ?_, fun f hw hd hc => ?_⟩
  · simp [State.takeEof, hw]
  · simp [State.takeEof, hw, State.headerBad_eq]
  · have k := s.checkFailed_heardAt p f hr
    refine ⟨_, plain _ ?_ (by simpa using k.mgmt), k⟩
    unfold State.takeEof
    rw [hx]
    rcases hw with hw | ⟨hw, hb⟩
    · simp only [hw]
    · simp only [hw]
      split
      · rfl
      · next hl =>
        have hg : f.checkGood = false := by
          rw [Bool.eq_false_iff, Ne, RxFrame.checkGood_iff]
          rintro ⟨h1, h2⟩
          rcases hb with hb | hb | hb
          · exact hl hb
          · rw [h1] at hb; cases hb
          · exact hb h2
        simp [State.dispose, hg]
  · have hg : f.checkGood = true := f.checkGood_iff.mpr ⟨hd, hc⟩
    have hl : ¬ f.checkBytes.length < 4 := by rw [hc, beBytes_length]; decide
    have disposed : (s.heardAt p).takeEof p = (s.heardAt p).dispose p f := by
      unfold State.takeEof
      rw [hx, hw]
      exact if_neg hl
    refine ⟨fun hs hr => ?_, fun hs hr => plain _ ?_ (by simp), fun r hs hr hf => plain _ ?_ (by simp)⟩
    · have k := (s.heardAt p).ended_gaveBack p (.ack f.seq) f.frame .duplicates (hr.imp_right (s.heardAt_roomy p))
      rw [State.setTrunk_setTrunk, State.trunk_setTrunk_same] at k
      refine ⟨_, plain _ ?_ (by simpa using k.mgmt), k⟩
      rw [disposed]
      simp [State.dispose, hg, hs]
    · rw [disposed]
      simp only [State.dispose, hg, Bool.not_true, Bool.false_eq_true, if_false, hx, hs, hr]
      cases p <;> rfl
    · rw [disposed]
      simp only [State.dispose, hg, Bool.not_true, Bool.false_eq_true, if_false, hx, hs, hr, hf]
      cases p <;> rfl

end Sys2Proof.Machine

end

section
/-! An admission granted: the record it takes, and the bytes it is filled with. The tenth header byte of a frame. -/

namespace Sys2Proof.Machine

variable {s t u : State}

/-- Filling a frame changes bytes of the pages and nothing else. -/
theorem State.fill_eq (s : State) (r i : Nat) (l : List Byte) :
    s.fill r i l = { s with store := { s.store with mem := (s.fill r i l).store.mem } } := by
  have one : ∀ (u : State) (i : Nat) (b : Byte),
      u.writeFrameByte r i b = { u with store := { u.store with mem := (u.writeFrameByte r i b).store.mem } } := by
    intro u i b
    unfold State.writeFrameByte
    split
    · split <;> rfl
    · rfl
  induction l generalizing s i with
  | nil => rfl
  | cons b l ih =>
    rw [State.fill, ih, one s i b]

@[simp] theorem State.fill_freeRecs (s : State) (r i : Nat) (l : List Byte) :
    (s.fill r i l).store.freeRecs = s.store.freeRecs := by rw [s.fill_eq]
@[simp] theorem State.fill_freePages (s : State) (r i : Nat) (l : List Byte) :
    (s.fill r i l).store.freePages = s.store.freePages := by rw [s.fill_eq]
@[simp] theorem State.fill_held (s : State) (r i : Nat) (l : List Byte) :
    (s.fill r i l).store.held = s.store.held := by rw [s.fill_eq]
@[simp] theorem State.fill_watermark (s : State) (r i : Nat) (l : List Byte) :
    (s.fill r i l).store.watermark = s.store.watermark := by rw [s.fill_eq]
@[simp] theorem State.fill_trunk (s : State) (r i : Nat) (l : List Byte) (p : TrunkPort) :
    (s.fill r i l).trunk p = s.trunk p := by rw [s.fill_eq]; cases p <;> rfl
@[simp] theorem State.fill_loc (s : State) (r i : Nat) (l : List Byte) : (s.fill r i l).loc = s.loc := by rw [s.fill_eq]
@[simp] theorem State.fill_steer (s : State) (r i : Nat) (l : List Byte) : (s.fill r i l).steer = s.steer := by rw [s.fill_eq]

/-- The record of an admission just granted (R30). -/
theorem State.taken_record (s : State) (src : Source) (len r : Nat) (rest : List Nat) :
    (s.taken src len r rest).record r =
      { state := .filling, source := src, size := 10 + len, pages := s.store.freePages.take (pagesNeeded len)
        arrival := s.nodeTime, refs := 0 } := by
  simp [State.record, State.taken]

theorem pagesNeeded_pos (len : Nat) : 0 < pagesNeeded len := by
  unfold pagesNeeded
  have : Config.pageSize = 64 := rfl
  rw [this]
  omega

/-- The first page of an admission just granted. -/
theorem State.taken_pages (s : State) (src : Source) (len r : Nat) (rest : List Nat)
    (h : pagesNeeded len ≤ s.store.freePages.length) :
    ∃ pg more, ((s.taken src len r rest).record r).pages = pg :: more := by
  rw [State.taken_record]
  have hp := pagesNeeded_pos len
  cases hl : s.store.freePages.take (pagesNeeded len) with
  | nil =>
    have := congrArg List.length hl
    rw [List.length_take, List.length_nil] at this
    omega
  | cons pg more => exact ⟨pg, more, rfl⟩

/-- The first bytes written into a record just admitted are read back. -/
theorem State.frameByte_fill_taken (s : State) (src : Source) (len r : Nat) (rest : List Nat) (w : Watermark)
    (h : pagesNeeded len ≤ s.store.freePages.length) (l : List Byte) (hl : l.length ≤ 10) (i : Nat) (hi : i < l.length) :
    (((s.taken src len r rest).setWatermark w).fill r 0 l).frameByte r i = byteAt l i := by
  obtain ⟨pg, more, hp⟩ := s.taken_pages src len r rest h
  have hp : (((s.taken src len r rest).setWatermark w).record r).pages = pg :: more := hp
  have hs : (((s.taken src len r rest).setWatermark w).record r).size = 10 + len :=
    congrArg FrameRecord.size (s.taken_record src len r rest)
  have h64 : Config.pageSize = 64 := rfl
  rw [State.frameByte_fill _ r pg more hp l 0 (by omega) (by rw [hs]; omega) i (by omega), if_pos (by omega)]
  rfl

/-! ### The tenth header byte -/

/-- Settles O17. -/
theorem tenthHeaderByteJudged : Obligations.TenthHeaderByteJudged := by
  intro s p b f hp hd hw hl
  have hx := s.heardAt_rx p
  have plain : ∀ t, (s.heardAt p).takeData p b = t → t.mgmt = s.mgmt → exec (.dataByteReceived p b) s = .next t :=
    fun t ht hm => congrArg Host.Outcome.next (State.hear_settle hp hd ht hm)
  have judged : (s.heardAt p).takeData p b = (s.heardAt p).judgeHeader p
      { f with header := f.header ++ [b], check := frameCheckNext f.check b } := by
    unfold State.takeData
    rw [hx, hw]
    dsimp only
    rw [if_neg (by rw [List.length_append, hl]; simp)]
  refine ⟨fun hb => plain _ ?_ (by simp), fun h n g hh hn hg hb => ?_⟩
  · rw [judged]
    unfold State.judgeHeader
    dsimp only
    rw [if_pos hb, State.headerBad_eq]
    simp
  · subst hg
    refine ⟨fun hr => plain _ ?_ (by simp), fun r rest hr hf hn2 hq => ?_⟩
    · rw [judged]
      unfold State.judgeHeader
      dsimp only
      rw [if_neg (by simp [hb]), ← hh]
      have refused : (s.heardAt p).setReception p (bodyState { f with
          header := f.header ++ [b], check := frameCheckNext f.check b, seq := h.seq, length := h.length.toNat
          refused := true }) = s.setTrunk p { s.trunk p with
          link := (s.trunk p).link.heard
          rx := { (s.trunk p).rx with reception := bodyState { f with
          header := f.header ++ [b], check := frameCheckNext f.check b, seq := h.seq, length := h.length.toNat
          refused := true } } } := by
        simp [State.setReception_eq]
      split
      · exact refused
      · next hpe =>
        rw [State.askRoom_refused]
        · exact refused
        · rw [← hn]
          rcases hr with hr | hr | hr | hr
          · exact absurd hr (by simpa [State.resetPending_setTrunk] using hpe)
          · exact .inl (by simpa using hr)
          · refine .inr (.inl ?_)
            have : reserveOf (trunkSource p) = 34 := by cases p <;> rfl
            simpa [this] using hr
          · exact .inr (.inr (by simpa [State.quota] using hr))
    · have hres : reserveOf (trunkSource p) = 34 := by cases p <;> rfl
      have hpages : pagesNeeded h.length.toNat + reserveOf (trunkSource p) ≤ (s.heardAt p).store.freePages.length := by
        rw [hres, ← hn]; simpa using hn2
      obtain ⟨w, granted, -⟩ := (s.heardAt p).askRoom_roomy (src := trunkSource p) (len := h.length.toNat) (r := r) (rest := rest)
        (by simpa using hf) hpages (by rw [← hn]; simpa [State.quota] using hq)
        (.inr (by rw [← hn]; simpa [show Config.reserve = 34 from rfl] using hn2))
      let u := (((s.heardAt p).taken (trunkSource p) h.length.toNat r rest).setWatermark w).fill r 0 (f.header ++ [b])
      have taken : (s.heardAt p).takeData p b = u.setReception p (bodyState { f with
          header := f.header ++ [b], check := frameCheckNext f.check b, seq := h.seq, length := h.length.toNat
          frame := some r }) := by
        rw [judged]
        unfold State.judgeHeader
        dsimp only
        rw [if_neg (by simp [hb]), ← hh, if_neg (by simpa [State.resetPending_setTrunk] using hr), granted]
      have hrec : u.record r =
          { state := .filling, source := trunkSource p, size := 10 + h.length.toNat
            pages := s.store.freePages.take n, arrival := s.nodeTime, refs := 0 } := by
        rw [State.fill_record, hn]
        refine ((s.heardAt p).taken_record (trunkSource p) h.length.toNat r rest).trans ?_
        simp
      refine ⟨_, plain _ taken ?_, ?_, ?_, ?_, ?_, ?_, ?_, ?_, ?_, ?_, ?_⟩
      · simp [u, State.fill_mgmt, State.taken, State.setWatermark]
      · simp [State.setReception_eq]
      · simp [u, State.taken, State.setWatermark]
      · simp [u, State.taken, State.setWatermark, hn]
      · simp [u, State.taken, State.setWatermark, hn]
      · exact (by cases p <;> rfl : (u.setReception p _).record r = u.record r).trans hrec
      · intro i hi
        refine (by cases p <;> rfl : (u.setReception p _).frameByte r i = u.frameByte r i).trans ?_
        exact State.frameByte_fill_taken _ _ _ r rest w (by omega) _ (by simp [hl]) i (by simp [hl]; omega)
      · simp [u, State.fill_events, State.taken, State.setWatermark]
      · simp [u, State.taken, State.setWatermark]
      · rw [State.setReception_eq, State.trunk_setTrunk_other, State.fill_trunk]
        cases p <;> rfl
      · simp [u, State.taken, State.setWatermark]

end Sys2Proof.Machine

end

section
/-! What the leaving of queue entries and the giving back of records do in a store with room: beside the queues and the
pending reset, nothing but the books of the store and what local ingress has been told. -/

namespace Sys2Proof.Machine

variable {s t u : State}

/-! ### Records given back -/

/-- `t` is `s` but for records that went back to a store with room: the books of the store differ, and what local ingress
has been told, but no byte of a page. -/
def State.Restored (s t : State) : Prop :=
  ∃ st x, t = ({ s with store := st } : State).setIngress x ∧ st.mem = s.store.mem ∧ t.roomy

theorem State.Restored.refl (h : s.roomy) : s.Restored s := ⟨s.store, s.loc.ingress, rfl, rfl, h⟩

theorem State.Restored.trans (h : s.Restored t) (g : t.Restored u) : s.Restored u := by
  obtain ⟨st, x, e, hm, -⟩ := h
  obtain ⟨st', x', e', hm', hr⟩ := g
  refine ⟨st', x', ?_, ?_, hr⟩
  · rw [e', e]; rfl
  · rw [hm', e]; exact hm

theorem State.Restored.roomy (h : s.Restored t) : t.roomy := h.choose_spec.choose_spec.2.2

section fields
variable (h : s.Restored t)
include h

theorem State.Restored.mem : t.store.mem = s.store.mem := by obtain ⟨st, x, e, hm, -⟩ := h; rw [e]; exact hm
theorem State.Restored.trunk (p : TrunkPort) : t.trunk p = s.trunk p := by
  obtain ⟨st, x, e, -⟩ := h; rw [e]; cases p <;> rfl
theorem State.Restored.tx (p : TrunkPort) : t.tx p = s.tx p := by rw [State.tx_eq, State.tx_eq, h.trunk p]
theorem State.Restored.queues (y : Port) : t.queues y = s.queues y := by
  obtain ⟨st, x, e, -⟩ := h; rw [e]; cases y <;> rfl
theorem State.Restored.egress : t.loc.egress = s.loc.egress := by obtain ⟨st, x, e, -⟩ := h; rw [e]; rfl
theorem State.Restored.locQueues : t.loc.queues = s.loc.queues := by obtain ⟨st, x, e, -⟩ := h; rw [e]; rfl
theorem State.Restored.locStats : t.loc.stats = s.loc.stats := by obtain ⟨st, x, e, -⟩ := h; rw [e]; rfl
theorem State.Restored.steer : t.steer = s.steer := by obtain ⟨st, x, e, -⟩ := h; rw [e]; rfl
theorem State.Restored.meters : t.meters = s.meters := by obtain ⟨st, x, e, -⟩ := h; rw [e]; rfl
theorem State.Restored.counters : t.counters = s.counters := by obtain ⟨st, x, e, -⟩ := h; rw [e]; rfl
theorem State.Restored.numbering : t.numbering = s.numbering := by obtain ⟨st, x, e, -⟩ := h; rw [e]; rfl
theorem State.Restored.enums : t.enums = s.enums := by obtain ⟨st, x, e, -⟩ := h; rw [e]; rfl
theorem State.Restored.session : t.session = s.session := by obtain ⟨st, x, e, -⟩ := h; rw [e]; rfl
theorem State.Restored.mgmt : t.mgmt = s.mgmt := by obtain ⟨st, x, e, -⟩ := h; rw [e]; rfl
theorem State.Restored.params : t.params = s.params := by obtain ⟨st, x, e, -⟩ := h; rw [e]; rfl
theorem State.Restored.events : t.events = s.events := by obtain ⟨st, x, e, -⟩ := h; rw [e]; rfl
theorem State.Restored.choices : t.choices = s.choices := by obtain ⟨st, x, e, -⟩ := h; rw [e]; rfl
theorem State.Restored.nodeTime : t.nodeTime = s.nodeTime := by obtain ⟨st, x, e, -⟩ := h; rw [e]; rfl

/-- What is done to a trunk port beside. -/
theorem State.Restored.setTrunk (p : TrunkPort) (y : Trunk) : (s.setTrunk p y).Restored (t.setTrunk p y) := by
  obtain ⟨st, x, e, hm, hr⟩ := h
  refine ⟨st, x, ?_, by simpa using hm, by simpa [State.roomy] using hr⟩
  rw [e]; cases p <;> rfl

theorem State.Restored.setQueues (q : Port) (y : QueueSet) : (s.setQueues q y).Restored (t.setQueues q y) := by
  obtain ⟨st, x, e, hm, hr⟩ := h
  refine ⟨st, x, ?_, by simpa using hm, by simpa [State.roomy] using hr⟩
  rw [e]; cases q <;> rfl

theorem State.Restored.onTx (p : TrunkPort) (f : Transmitter → Transmitter) : (s.onTx p f).Restored (t.onTx p f) := by
  have k := h.setTrunk p { s.trunk p with tx := f (s.trunk p).tx }
  rw [State.onTx_eq, State.onTx_eq, h.trunk p]
  exact k

theorem State.Restored.raiseTrunk (p : TrunkPort) (k : TrunkStat) : (s.raiseTrunk p k).Restored (t.raiseTrunk p k) := by
  rw [State.raiseTrunk_eq, State.raiseTrunk_eq, h.trunk p]
  exact h.setTrunk p _

theorem State.Restored.setMgmt (m : Mgmt) : State.Restored { s with mgmt := m } { t with mgmt := m } := by
  obtain ⟨st, x, e, hm, hr⟩ := h
  refine ⟨st, x, ?_, hm, hr⟩
  rw [e]; rfl

theorem State.Restored.setEgress (y : Egress) : (s.setEgress y).Restored (t.setEgress y) := by
  obtain ⟨st, x, e, hm, hr⟩ := h
  refine ⟨st, x, ?_, hm, hr⟩
  rw [e]; rfl

theorem State.Restored.append (k : EventKind) (p : Option Port) (d : Option Half) :
    (s.append k p d).Restored (t.append k p d) := by
  obtain ⟨st, x, e, hm, hr⟩ := h
  refine ⟨st, x, ?_, by rw [State.append_store]; exact hm, by
    unfold State.roomy at hr ⊢; rw [State.append_store]; exact hr⟩
  rw [e]
  unfold State.append
  split
  · next hl => rw [if_pos (show s.events.records.length < 32 from hl)]; rfl
  · next hl => rw [if_neg (show ¬ s.events.records.length < 32 from hl)]; rfl

/-- An event behind another is raised beside (R172). -/
theorem State.Restored.raiseEvent (hr : s.events.records ≠ []) (k : EventKind) (p : Option Port) (d : Option Half) :
    (s.raiseEvent k p d).Restored (t.raiseEvent k p d) := by
  rw [State.raiseEvent_behind k p d hr, State.raiseEvent_behind k p d (by rwa [h.events])]
  exact h.append k p d

end fields

theorem State.restored_dropRef (h : s.roomy) (r : Nat) : s.Restored (s.dropRef r) := by
  obtain ⟨st, x, e, hm, hr⟩ := s.dropRef_roomy h r
  exact ⟨st, x, e, hm, hr⟩

theorem State.restored_release (h : s.roomy) (r : Nat) : s.Restored (s.release r) := by
  obtain ⟨w, x, e, hr, -⟩ := s.release_roomy h r
  exact ⟨((s.returnRoom r).setWatermark w).store, x, e, rfl, hr⟩

theorem State.restored_abandon (h : s.roomy) (r : Option Nat) : s.Restored (s.abandon r) := by
  cases r with
  | none => exact .refl h
  | some r => exact s.restored_release h r

/-! ### The pending reset beside -/

/-- An unwatch changes the management engine alone. -/
theorem State.unwatch_eq (s : State) (q : Port) (r : Nat) : s.unwatch q r = { s with mgmt := (s.unwatch q r).mgmt } := by
  unfold State.unwatch
  split
  · split <;> rfl
  · rfl

/-- What an unwatch makes of the management engine depends on that alone. -/
theorem State.unwatch_mgmt_congr (h : t.mgmt = s.mgmt) (q : Port) (r : Nat) : (t.unwatch q r).mgmt = (s.unwatch q r).mgmt := by
  unfold State.unwatch
  rw [h]
  split
  · split
    · rfl
    · exact h
  · exact h

/-- An entry that is not watched leaves the management engine as it is. -/
theorem State.unwatch_mgmt_other {q : Port} {r : Nat} (h : s.watches q r = false) : (s.unwatch q r).mgmt = s.mgmt := by
  rw [State.unwatch_other q r h]

theorem State.watches_of_not_pending {s : State} (h : s.resetPending = false) (q : Port) (r : Nat) : s.watches q r = false := by
  cases hx : s.mgmt.executor with
  | resetPending w => simp [State.resetPending, hx] at h
  | idle => simp [State.watches, hx]
  | executing e => simp [State.watches, hx]

theorem State.watches_of_mgmt (h : t.mgmt = s.mgmt) (q : Port) (r : Nat) : t.watches q r = s.watches q r := by
  unfold State.watches; rw [h]

/-- An entry removed in a store with room. -/
theorem State.restored_removeEntry (h : s.roomy) (q : Port) (e : Entry) :
    State.Restored { s.setQueues q ((s.queues q).without e) with mgmt := (s.unwatch q e.frame).mgmt }
      (s.removeEntry q e) := by
  have hs : ((s.setQueues q ((s.queues q).without e)).unwatch q e.frame).roomy := by
    rw [State.unwatch_eq]
    simpa [State.roomy] using h
  have k : State.Restored _ (s.removeEntry q e) := State.restored_dropRef hs e.frame
  have hm : ((s.setQueues q ((s.queues q).without e)).unwatch q e.frame).mgmt = (s.unwatch q e.frame).mgmt :=
    State.unwatch_mgmt_congr (by simp) q e.frame
  have eq := State.unwatch_eq (s.setQueues q ((s.queues q).without e)) q e.frame
  rw [hm] at eq
  exact (congrArg (State.Restored · (s.removeEntry q e)) eq).mp k

/-! ### The frame in flight leaves -/

theorem Transmitter.advanced_cleared (x : Transmitter) : x.advanced.cleared = x.vacated := by
  unfold Transmitter.advanced Transmitter.cleared Transmitter.vacated
  split <;> rfl

theorem State.trunk_queues (s : State) (p : TrunkPort) : s.queues (portOf p) = (s.trunk p).queues := by cases p <;> rfl

theorem State.setQueues_trunk (s : State) (p : TrunkPort) (x : QueueSet) :
    s.setQueues (portOf p) x = s.setTrunk p { s.trunk p with queues := x } := by cases p <;> rfl

/-- The frame in flight leaves in a store with room: its transmitter is vacated and its entry gone. -/
theorem State.restored_leaveFlight (h : s.roomy) {p : TrunkPort} {e : Entry} (hf : (s.tx p).inFlight = some e) :
    State.Restored { s.setTrunk p { s.trunk p with tx := (s.tx p).vacated, queues := (s.trunk p).queues.without e } with
      mgmt := (s.unwatch (portOf p) e.frame).mgmt } (s.leaveFlight p) := by
  have k := State.restored_removeEntry (s := s.onTx p (fun t => t.advanced.cleared)) (by simpa [State.roomy] using h)
    (portOf p) e
  have hm : ((s.onTx p (fun t => t.advanced.cleared)).unwatch (portOf p) e.frame).mgmt = (s.unwatch (portOf p) e.frame).mgmt :=
    State.unwatch_mgmt_congr (by simp) _ _
  rw [hm, State.trunk_queues, State.setQueues_trunk, State.onTx_eq, State.trunk_setTrunk_same, State.setTrunk_setTrunk,
    Transmitter.advanced_cleared] at k
  unfold State.leaveFlight
  rw [hf]
  dsimp only
  rw [State.onTx_eq, Transmitter.advanced_cleared]
  exact k

/-- With nothing watched there, the management engine stays. -/
theorem State.restored_leaveFlight_unwatched (h : s.roomy) {p : TrunkPort} {e : Entry} (hf : (s.tx p).inFlight = some e)
    (hw : s.watches (portOf p) e.frame = false) :
    State.Restored (s.setTrunk p { s.trunk p with tx := (s.tx p).vacated, queues := (s.trunk p).queues.without e })
      (s.leaveFlight p) := by
  have k := State.restored_leaveFlight h hf
  rw [State.unwatch_mgmt_other hw] at k
  have e : ({ s.setTrunk p { s.trunk p with tx := (s.tx p).vacated, queues := (s.trunk p).queues.without e } with
      mgmt := s.mgmt } : State) =
      s.setTrunk p { s.trunk p with tx := (s.tx p).vacated, queues := (s.trunk p).queues.without e } := by cases p <;> rfl
  rwa [e] at k

end Sys2Proof.Machine

end

section
/-! The transmitter of a trunk port: selection, copies, acknowledgements, failed attempts. -/

namespace Sys2Proof.Machine

variable {s t u : State}

/-! ### The residence check (R69) -/

theorem State.fresh_iff (s : State) (r : Nat) : s.fresh r = true ↔
    s.params.residenceLimit = 0 ∨ (s.nodeTime - (s.record r).arrival).toNat ≤ s.params.residenceLimit := by
  rw [← Bool.not_eq_false, State.fresh_eq_false, State.stale]
  omega

/-- A copy begun: one change of the port (R70). -/
theorem State.startCopy_eq (s : State) (p : TrunkPort) : s.startCopy p = s.setTrunk p { s.trunk p with
    tx := { (s.tx p) with state := .sending, sent := true, acked := false, timer := none }
    stats := (s.trunk p).stats.on satInc (if (s.tx p).sent then .retransmissions else .framesSent) } := by
  unfold State.startCopy
  rw [State.onTx_eq, State.raiseTrunk_eq, State.trunk_setTrunk_same, State.setTrunk_setTrunk]
  rfl

/-- A copy of a frame sent before (R70). -/
theorem State.startCopy_again {p : TrunkPort} (h : (s.tx p).sent = true) : s.startCopy p = s.setTrunk p { s.trunk p with
    tx := { (s.tx p) with state := .sending, acked := false, timer := none }
    stats := { (s.trunk p).stats with retransmissions := satInc (s.trunk p).stats.retransmissions } } := by
  rw [State.startCopy_eq]
  simp only [h, if_true]
  rfl

theorem State.retransmit_fresh {p : TrunkPort} {e : Entry} (hf : (s.tx p).inFlight = some e) (h : s.fresh e.frame = true) :
    s.retransmit p = s.startCopy p := by
  unfold State.retransmit
  rw [hf]
  exact if_pos h

theorem State.retransmit_stale {p : TrunkPort} {e : Entry} (hf : (s.tx p).inFlight = some e) (h : s.fresh e.frame = false) :
    s.retransmit p = s.discardFlight p := by
  unfold State.retransmit
  rw [hf]
  exact if_neg (by simp [h])

/-! ### TX_SELECT -/

theorem QueueSet.without_of_single {x : QueueSet} {e : Entry} (h : x.entries = [e]) : (x.without e).entries = [] := by
  have k := x.foldl_without (fun _ => true)
  rw [List.filter_true, h, List.foldl_cons, List.foldl_nil] at k
  rw [k]
  simp [QueueSet.entries, QueueSet.keep]

theorem exec_txSelect {p : TrunkPort} (h : s.maySelect p = true) :
    exec (.txSelect p) s = .next (s.select p ((s.trunk p).queues.entries.length + 1)).settle := if_pos h

/-- Settles O29. -/
theorem txSelectSendsOrDiscardsHead : Obligations.TxSelectSendsOrDiscardsHead := by
  have may : ∀ (s : State) (p : TrunkPort), (s.tx p).state = .idle → (s.tx p).inFlight = none → s.enabled p = true →
      (s.trunk p).link.up = true → s.maySelect p = true := by
    intro s p hi hn he hu
    simp [State.maySelect, State.usable, hi, hn, he, hu]
  refine ⟨fun s p e more hi hn he hu hq hr hd => ?_, fun s p e hi hn he hu hq hl hr hroom hd hw => ?_⟩
  · have sent : s.select p ((s.trunk p).queues.entries.length + 1) =
        (s.onTx p (fun t => { t with inFlight := some e, sent := false, acked := false })).startCopy p := by
      unfold State.select QueueSet.urgent
      rw [hq]
      exact if_pos ((s.fresh_iff _).mpr hr)
    rw [exec_txSelect (may s p hi hn he hu), sent, s.settle_of_mgmt _ hd]
    · rw [State.startCopy_eq]
      cases p <;> rfl
    · rw [State.startCopy_eq]
      simp
  · have stale : s.fresh e.frame = false := (State.fresh_eq_false _).mpr ⟨hl, hr⟩
    have k := State.restored_removeEntry (s := s.raiseTrunk p .residenceDiscards) (by simpa [State.roomy] using hroom)
      (portOf p) e
    have hm : ((s.raiseTrunk p .residenceDiscards).unwatch (portOf p) e.frame).mgmt = s.mgmt := by
      rw [State.unwatch_mgmt_congr (s := s) (by simp), State.unwatch_mgmt_other hw]
    rw [hm, State.trunk_queues, State.setQueues_trunk] at k
    generalize hv : (s.raiseTrunk p .residenceDiscards).removeEntry (portOf p) e = v at k
    have trunk : v.trunk p = { s.trunk p with
        queues := (s.trunk p).queues.without e
        stats := { (s.trunk p).stats with residenceDiscards := satInc (s.trunk p).stats.residenceDiscards } } := by
      rw [k.trunk p]
      cases p <;> rfl
    have empty : (v.trunk p).queues.entries = [] := by
      rw [trunk]
      exact QueueSet.without_of_single hq
    have chosen : s.select p ((s.trunk p).queues.entries.length + 1) = v := by
      rw [hq]
      unfold State.select
      rw [QueueSet.urgent, hq]
      dsimp only [List.head?_cons]
      rw [if_neg (by simp [stale]), hv]
      split
      · rfl
      · unfold State.select
        rw [QueueSet.urgent, empty]
        rfl
    refine ⟨v, ?_, empty, ?_, ?_, ?_, ?_, ?_⟩
    · rw [exec_txSelect (may s p hi hn he hu), chosen, s.settle_of_mgmt k.mgmt hd]
    · rw [State.tx_eq, trunk]; rfl
    · rw [trunk]
    · rw [k.trunk]; cases p <;> rfl
    · rw [k.locQueues]; cases p <;> rfl
    · rw [k.steer]; cases p <;> rfl

/-! ### COPY_EOF_SENT, RETRY_WAIT_EXPIRY, ANSWER_SENT -/

/-- Settles O30. -/
theorem copyEndRetryAndAnswerSent : Obligations.CopyEndRetryAndAnswerSent := by
  refine ⟨fun s p e hs hf ha hd => ?_, fun s p e hs ht hf hsent hr hd => ?_, fun s p a rest he ha => ?_⟩
  · have ended : s.endCopy p = s.setTrunk p { s.trunk p with
        tx := { (s.tx p) with state := .awaitingAck, timer := some s.params.ackWait }
        lineOut := copySymbols (s.frameBytes e.frame) (s.tx p).txSeq } := by
      unfold State.endCopy
      rw [hf]
      dsimp only
      rw [if_neg (by simp [ha])]
      cases p <;> rfl
    refine (if_pos hs).trans (congrArg Host.Outcome.next ?_)
    rw [ended, s.settle_of_mgmt (by simp) hd]
  · refine (if_pos ⟨hs, ht⟩).trans (congrArg Host.Outcome.next ?_)
    rw [State.retransmit_fresh hf ((s.fresh_iff _).mpr hr), State.startCopy_again hsent, s.settle_of_mgmt (by simp) hd]
  · refine congrArg Host.Outcome.next ?_
    have slot : s.nextSlot p = .answer a := by
      simp [State.nextSlot, he, ha]
    unfold State.sendAnswer
    rw [slot]
    dsimp only
    rw [State.onTrunk_eq, ha]
    cases a <;> rfl

/-! ### ACK_RECEIVED, NAK_RECEIVED -/

theorem State.stray_eq (s : State) (p : TrunkPort) : s.stray p = s.setTrunk p { s.trunk p with
    stats := { (s.trunk p).stats with strayAcks := satInc (s.trunk p).stats.strayAcks } } := by cases p <;> rfl

theorem Transmitter.vacated_sent {x : Transmitter} (h : x.sent = true) : x.vacated =
    { state := .idle, txSeq := x.txSeq + 1, attempts := 0, inFlight := none, sent := false, acked := false
      timer := none } := by
  simp [Transmitter.vacated, h]

/-- ACK(TxSeq) takes the frame in flight out of a transmitter that awaits it, waits to retry or is suspended (R71). -/
theorem State.takeAck_leaves {p : TrunkPort} {e : Entry} (hf : (s.tx p).inFlight = some e)
    (hs : (s.tx p).state = .awaitingAck ∨ (s.tx p).state = .retryWait ∨ (s.tx p).state = .idle) :
    s.takeAck p (s.tx p).txSeq = s.leaveFlight p := by
  unfold State.takeAck
  rw [if_pos rfl]
  rcases hs with hs | hs | hs <;> rw [hs]
  simp [hf]

/-- The end of a copy already acknowledged takes the frame in flight out (R70, R71). -/
theorem State.endCopy_acked {p : TrunkPort} {e : Entry} (hf : (s.tx p).inFlight = some e) (ha : (s.tx p).acked = true) :
    s.endCopy p = (s.onTrunk p (fun t => { t with lineOut := copySymbols (s.frameBytes e.frame) t.tx.txSeq })).leaveFlight p := by
  unfold State.endCopy
  rw [hf]
  exact if_pos ha

/-- A completion (R71): the frame in flight leaves, in a state that differs from `s` in nothing the completion is about. -/
theorem State.leaveFlight_completes {p : TrunkPort} {e : Entry} (hf : (s.tx p).inFlight = some e)
    (hsent : (s.tx p).sent = true) (hw : s.watches (portOf p) e.frame = false) (hd : s.resetDue = false) (hr : u.roomy)
    (hm : u.mgmt = s.mgmt) (htx : u.tx p = s.tx p) (hq : (u.trunk p).queues = (s.trunk p).queues)
    (hst : (u.trunk p).stats = (s.trunk p).stats) (hot : u.trunk (otherPort p) = s.trunk (otherPort p))
    (hl : u.loc = s.loc) (hsteer : u.steer = s.steer) (hstore : u.store = s.store) :
    ∃ t : State, (u.leaveFlight p).settle = t ∧
      t.tx p =
        { state := .idle, txSeq := (s.tx p).txSeq + 1, attempts := 0, inFlight := none, sent := false, acked := false
          timer := none } ∧
      (t.trunk p).queues = (s.trunk p).queues.set e.cls (((s.trunk p).queues.get e.cls).erase e.frame) ∧
      (t.trunk p).stats = (s.trunk p).stats ∧ t.trunk (otherPort p) = s.trunk (otherPort p) ∧
      t.loc.queues = s.loc.queues ∧ t.steer = s.steer ∧ t.mgmt = s.mgmt ∧ t.store.mem = s.store.mem := by
  have k := State.restored_leaveFlight_unwatched hr (htx ▸ hf) (State.watches_of_mgmt hm _ _ ▸ hw)
  refine ⟨_, s.settle_of_mgmt ?_ hd, ?_, ?_, ?_, ?_, ?_, ?_, ?_, ?_⟩
  · rw [k.mgmt, State.setTrunk_mgmt, hm]
  · rw [k.tx, State.tx_eq, State.trunk_setTrunk_same, htx]
    exact Transmitter.vacated_sent hsent
  · rw [k.trunk, State.trunk_setTrunk_same, hq]
    rfl
  · rw [k.trunk, State.trunk_setTrunk_same, hst]
  · rw [k.trunk, State.trunk_setTrunk_other, hot]
  · rw [k.locQueues, State.setTrunk_loc, hl]
  · rw [k.steer, State.setTrunk_steer, hsteer]
  · rw [k.mgmt, State.setTrunk_mgmt, hm]
  · rw [k.mem, State.setTrunk_store, hstore]

/-- Settles O31: the frame in flight leaves, or the port's transmitter or statistic alone changes. -/
theorem ackCompletesIsRememberedOrStray : Obligations.AckCompletesIsRememberedOrStray := by
  refine ⟨fun s p e c hf hsent hroom hd hw hc => ?_, fun s p q h hd => ?_⟩
  · rcases hc with ⟨rfl, hp, hs⟩ | ⟨rfl, hs, ha⟩
    · have htx : (s.heardAt p).tx p = s.tx p := by cases p <;> rfl
      have acked : s.hear p (fun v => v.takeAck p (s.tx p).txSeq) = (s.heardAt p).leaveFlight p := by
        rw [State.hear_plainly hp]
        have := State.takeAck_leaves (s := s.heardAt p) (htx ▸ hf) (htx ▸ hs)
        rwa [htx] at this
      obtain ⟨t, ht, rest⟩ := State.leaveFlight_completes (u := s.heardAt p) hf hsent hw hd (s.heardAt_roomy p hroom) (by simp)
        htx (by simp) (by simp) (by simp) (by simp) (by simp) (by simp)
      exact ⟨t, congrArg Host.Outcome.next ((congrArg State.settle acked).trans ht), rest⟩
    · obtain ⟨t, ht, rest⟩ := State.leaveFlight_completes
        (u := s.onTrunk p (fun t => { t with lineOut := copySymbols (s.frameBytes e.frame) t.tx.txSeq })) hf hsent hw hd
        (by simpa [State.roomy] using hroom) (by simp) (by cases p <;> rfl) (by simp [State.onTrunk_eq])
        (by simp [State.onTrunk_eq]) (by simp [State.onTrunk_eq]) (by simp) (by simp) (by simp)
      rw [← State.endCopy_acked hf ha] at ht
      exact ⟨t, (if_pos hs).trans (congrArg Host.Outcome.next ht), rest⟩
  · have htx : (s.heardAt p).tx p = s.tx p := by cases p <;> rfl
    have stray : (s.heardAt p).stray p = s.setTrunk p { s.trunk p with
        link := (s.trunk p).link.heard
        stats := { (s.trunk p).stats with strayAcks := satInc (s.trunk p).stats.strayAcks } } := by
      rw [State.stray_eq]; simp
    refine ⟨fun hq hs ha => ?_, fun hx => ?_, fun why hx => ?_⟩ <;>
      refine congrArg Host.Outcome.next (State.hear_settle h hd ?_ (by simp))
    · unfold State.takeAck
      rw [htx, if_pos hq, hs]
      dsimp only
      rw [if_neg (by simp [ha])]
      cases p <;> rfl
    · rw [← stray]
      unfold State.takeAck
      rw [htx]
      split
      · next hq =>
        rcases hx with hx | hx | ⟨hx, ha⟩ | ⟨hx, ha⟩
        · exact absurd hq hx
        · rw [hx]
        · rw [hx]; exact if_pos ha
        · rw [hx]; exact if_neg (by simp [ha])
      · rfl
    · rw [← stray]
      unfold State.takeNak
      rw [htx]
      exact if_neg (fun hq => hx.elim (· hq.1) (· hq.2))

/-! ### A failed attempt (R72 to R79) -/

theorem State.failAttempt_waits {p : TrunkPort} (h : (s.tx p).attempts + 1 < s.retryLimit p) :
    s.failAttempt p = s.setTrunk p { s.trunk p with tx := { (s.tx p) with
      state := .retryWait, attempts := (s.tx p).attempts + 1
      timer := some (s.params.retryStep * ((s.tx p).attempts + 1)) } } := by
  unfold State.failAttempt
  dsimp only
  rw [if_pos h]
  rfl

theorem State.failAttempt_exhausts {p : TrunkPort} (h : s.retryLimit p ≤ (s.tx p).attempts + 1) :
    s.failAttempt p = (s.onTx p (fun t => { t with attempts := (s.tx p).attempts + 1, timer := none })).exhaust p := by
  unfold State.failAttempt
  dsimp only
  rw [if_neg (by omega)]

theorem State.retryLimit_of_params (h : t.params = s.params) (p : TrunkPort) : t.retryLimit p = s.retryLimit p := by
  cases p <;> simp [State.retryLimit, h]

theorem State.retryPolicy_of_params (h : t.params = s.params) (p : TrunkPort) : t.retryPolicy p = s.retryPolicy p := by
  cases p <;> simp [State.retryPolicy, h]

/-- An exhausted frame under DROP, before its event (R78). -/
theorem State.exhaust_drop {p : TrunkPort} (h : s.retryPolicy p = .drop) :
    s.exhaust p = ((s.raiseTrunk p .retryExhaustions).leaveFlight p).raiseEvent .retryExhausted (some (portOf p)) (some 2) := by
  unfold State.exhaust
  rw [h]
  rfl

end Sys2Proof.Machine

end

section
/-! A failed attempt (R72 to R79). -/

namespace Sys2Proof.Machine

variable {s t u : State}

/-! ### How many records an event can add -/

theorem State.length_append_le (s : State) (k : EventKind) (p : Option Port) (d : Option Half) :
    (s.append k p d).events.records.length ≤ s.events.records.length + 1 := by
  unfold State.append
  split <;> simp

theorem State.length_examineQuietly_le (s : State) :
    s.examineQuietly.events.records.length ≤ s.events.records.length + 1 := by
  unfold State.examineQuietly
  split
  · split
    · exact (State.length_append_le _ _ _ _).trans (by simp)
    · omega
  · split <;> simp

theorem State.length_releaseSkippedNotice_le (s : State) (r : Nat) :
    (s.releaseSkippedNotice r).events.records.length ≤ s.events.records.length + 1 := by
  unfold State.releaseSkippedNotice
  split
  · rw [State.announce_events]
    exact (State.length_examineQuietly_le _).trans (by simp)
  · omega

/-- A notice brings at most the STORE_LOW of its admission and of its release. -/
theorem State.length_sendNotice_le (s : State) (e : EventRecord) :
    (s.sendNotice e).events.records.length ≤ s.events.records.length + 2 := by
  unfold State.sendNotice
  split
  · omega
  · next r s1 ht =>
    have h1 := s1.length_examineQuietly_le
    rw [s.takeRoom_events ht] at h1
    have skipped : ∀ u : State, (u.releaseSkippedNotice r).setNotice.events.records.length ≤ u.events.records.length + 1 :=
      fun u => u.length_releaseSkippedNotice_le r
    refine (skipped _).trans ?_
    rw [State.placeByDest_events, State.fill_events]
    omega

/-- An event adds one record behind others, and at most three to an empty queue. -/
theorem State.length_raiseEvent_le (s : State) (k : EventKind) (p : Option Port) (d : Option Half) :
    (s.raiseEvent k p d).events.records.length ≤ max (s.events.records.length + 1) 3 := by
  have h1 := s.length_append_le k p d
  unfold State.raiseEvent
  dsimp only
  split
  · next h =>
    have empty : s.events.records.length = 0 := by
      rw [Bool.and_eq_true, List.isEmpty_iff] at h
      exact List.length_eq_zero_iff.mpr h.1
    have h2 := (s.append k p d).length_sendNotice_le (s.newRecord k p d)
    omega
  · omega

/-- Two events raised with room for both stand in the queue. -/
theorem State.raiseEvent_both (h : s.events.records.length < 31) (k k' : EventKind) (p p' : Option Port) (d d' : Option Half) :
    (∃ e ∈ ((s.raiseEvent k p d).raiseEvent k' p' d').events.records, e.kind = k ∧ e.port = p ∧ e.detail = d) ∧
      ∃ e ∈ ((s.raiseEvent k p d).raiseEvent k' p' d').events.records, e.kind = k' ∧ e.port = p' ∧ e.detail = d' := by
  have h1 := s.length_raiseEvent_le k p d
  obtain ⟨l, hl⟩ := State.raiseEvent_stored s (by omega) k p d
  obtain ⟨m, hm⟩ := State.raiseEvent_stored (s.raiseEvent k p d) (by omega) k' p' d'
  refine ⟨⟨s.newRecord k p d, ?_, rfl, rfl, rfl⟩, ⟨(s.raiseEvent k p d).newRecord k' p' d', ?_, rfl, rfl, rfl⟩⟩
  · rw [hm, hl]; simp
  · rw [hm]; simp

/-! ### The attempt -/

theorem exec_ackWaitExpiry {p : TrunkPort} (hs : (s.tx p).state = .awaitingAck) (ht : (s.tx p).timer.isSome = true) :
    exec (.ackWaitExpiry p) s = .next (s.failAttempt p).settle := if_pos ⟨hs, ht⟩

/-- A frame that meets its retry policy, before that: its attempt counted, the timer stopped, the exhaustion counted. -/
def State.spent (s : State) (p : TrunkPort) : State := s.setTrunk p { s.trunk p with
  tx := { (s.tx p) with attempts := (s.tx p).attempts + 1, timer := none }
  stats := { (s.trunk p).stats with retryExhaustions := satInc (s.trunk p).stats.retryExhaustions } }

theorem State.failAttempt_again {p : TrunkPort} (h : s.retryLimit p ≤ (s.tx p).attempts + 1)
    (hp : s.retryPolicy p = .again) : s.failAttempt p = s.setTrunk p { s.trunk p with
      tx := { (s.tx p) with state := .retryWait, attempts := 0, timer := some s.params.retryStep }
      stats := { (s.trunk p).stats with retryExhaustions := satInc (s.trunk p).stats.retryExhaustions } } := by
  rw [State.failAttempt_exhausts h, State.exhaust, State.retryPolicy_of_params (s := s) (by simp) p, hp]
  cases p <;> rfl

theorem State.failAttempt_drop {p : TrunkPort} (h : s.retryLimit p ≤ (s.tx p).attempts + 1)
    (hp : s.retryPolicy p = .drop) : s.failAttempt p =
      ((s.spent p).leaveFlight p).raiseEvent .retryExhausted (some (portOf p)) (some 2) := by
  rw [State.failAttempt_exhausts h, State.exhaust_drop ((State.retryPolicy_of_params (by simp) p).trans hp)]
  cases p <;> rfl

theorem State.failAttempt_hold {p : TrunkPort} (h : s.retryLimit p ≤ (s.tx p).attempts + 1)
    (hp : s.retryPolicy p = .hold) : s.failAttempt p =
      (((s.spent p).onTx p (fun t => { t with state := .held, timer := none })).raiseEvent .retryExhausted
        (some (portOf p)) (some 3)).raiseEvent .portHeld (some (portOf p)) none := by
  rw [State.failAttempt_exhausts h, State.exhaust, State.retryPolicy_of_params (s := s) (by simp) p, hp]
  cases p <;> rfl

/-- Settles O32. -/
theorem failedAttemptWaitsOrExhausts : Obligations.FailedAttemptWaitsOrExhausts := by
  refine ⟨fun s p hs hd => ⟨fun h => ?_, fun hl => ⟨fun h => ?_, fun ht => ?_⟩⟩, fun s p hs ht hl hd =>
    ⟨fun hp => ?_, fun e hp hf hw hroom => ?_, fun hp hlen => ?_⟩⟩
  · refine congrArg Host.Outcome.next (State.hear_settle h hd ?_ (by simp))
    have htx : (s.heardAt p).tx p = s.tx p := by cases p <;> rfl
    unfold State.takeNak
    rw [htx, if_pos ⟨rfl, hs⟩]
    cases p <;> rfl
  · refine congrArg Host.Outcome.next (State.hear_settle h hd ?_ (by simp))
    have htx : (s.heardAt p).tx p = s.tx p := by cases p <;> rfl
    unfold State.takeNak
    rw [htx, if_pos ⟨rfl, hs⟩]
    dsimp only
    rw [State.failAttempt_waits (by rw [htx, State.retryLimit_of_params (s := s) (by simp)]; exact hl)]
    cases p <;> rfl
  · rw [exec_ackWaitExpiry hs ht, State.failAttempt_waits hl, s.settle_of_mgmt (by simp) hd]
  · rw [exec_ackWaitExpiry hs ht, State.failAttempt_again hl hp, s.settle_of_mgmt (by simp) hd]
  · have htx : (s.spent p).tx p = { (s.tx p) with attempts := (s.tx p).attempts + 1, timer := none } := by cases p <;> rfl
    have hm : (s.spent p).mgmt = s.mgmt := by simp [State.spent]
    have k := State.restored_leaveFlight_unwatched (s := s.spent p) (p := p) (e := e)
      (by simpa [State.roomy, State.spent] using hroom) (by rw [htx]; exact hf)
      (by rw [State.watches_of_mgmt hm]; exact hw)
    refine ⟨(s.spent p).leaveFlight p, ?_, ?_, ?_, ?_, ?_, ?_, ?_, ?_, ?_, ?_⟩
    · rw [exec_ackWaitExpiry hs ht, State.failAttempt_drop hl hp,
        s.settle_of_mgmt ((State.raiseEvent_mgmt _ _ _ _).trans (k.mgmt.trans (by simp [State.spent]))) hd]
    · rw [State.tx_eq, k.trunk p]; cases p <;> rfl
    · rw [k.trunk p]; cases p <;> rfl
    · rw [k.trunk p]; cases p <;> rfl
    · rw [k.trunk]; cases p <;> rfl
    · rw [k.locQueues]; cases p <;> rfl
    · rw [k.events]; cases p <;> rfl
    · rw [k.steer]; cases p <;> rfl
    · rw [k.mgmt]; simp [State.spent]
    · rw [k.mem]; simp [State.spent]
  · generalize hv : (s.spent p).onTx p (fun t => { t with state := .held, timer := none }) = v
    have hev : v.events = s.events := by rw [← hv]; simp [State.spent]
    have hm : v.mgmt = s.mgmt := by rw [← hv]; simp [State.spent]
    obtain ⟨⟨e, he, hek, hep, hed⟩, ⟨e', he', hek', hep', -⟩⟩ := State.raiseEvent_both (s := v) (by rw [hev]; exact hlen)
      .retryExhausted .portHeld (some (portOf p)) (some (portOf p)) (some 3) none
    refine ⟨_, ?_, ?_, ⟨e, he, hek, hep, hed⟩, ⟨e', he', hek', hep'⟩⟩
    · rw [exec_ackWaitExpiry hs ht, State.failAttempt_hold hl hp, hv, s.settle_of_mgmt _ hd]
      rw [State.raiseEvent_mgmt, State.raiseEvent_mgmt, hm]
    · rw [State.tx_eq, (State.calm_raiseEvent _ _ _ _).tx, (State.calm_raiseEvent _ _ _ _).tx, ← hv]
      cases p <;> rfl

end Sys2Proof.Machine

end

section
/-! A port whose link goes DOWN (R84, R86, R94 to R97): the receiver, the transmitter and the queues of the port, in a store
with room. -/

namespace Sys2Proof.Machine

variable {s t u v : State}

/-! ### Removals beside what they make of the pending reset -/

/-- `t` is `s` but for records that went back to a store with room, and the pending reset. -/
abbrev State.Cleared (s t : State) : Prop := State.Restored { s with mgmt := t.mgmt } t

theorem State.Restored.cleared (h : s.Restored t) : s.Cleared t := by
  have k := h.setMgmt t.mgmt
  exact k

theorem State.Cleared.trans (h : s.Cleared t) (g : t.Cleared u) : s.Cleared u := (h.setMgmt u.mgmt).trans g

theorem State.Cleared.setTrunk (h : s.Cleared t) (p : TrunkPort) (y : Trunk) : (s.setTrunk p y).Cleared (t.setTrunk p y) := by
  have k := State.Restored.setTrunk h p y
  unfold State.Cleared
  rw [State.setTrunk_mgmt]
  cases p <;> exact k

theorem State.Cleared.roomy (h : s.Cleared t) : t.roomy := State.Restored.roomy h

theorem State.Cleared.trunk (h : s.Cleared t) (p : TrunkPort) : t.trunk p = s.trunk p := by
  rw [State.Restored.trunk h p]; cases p <;> rfl

theorem State.Cleared.events (h : s.Cleared t) : t.events = s.events := by
  have k := State.Restored.events (s := { s with mgmt := t.mgmt }) h
  exact k

theorem State.append_setMgmt (s : State) (m : Mgmt) (k : EventKind) (p : Option Port) (d : Option Half) :
    State.append { s with mgmt := m } k p d = { s.append k p d with mgmt := m } := by
  unfold State.append
  dsimp only
  split <;> rfl

theorem State.Cleared.append (h : s.Cleared t) (k : EventKind) (p : Option Port) (d : Option Half) :
    (s.append k p d).Cleared (t.append k p d) := by
  have g := State.Restored.append h k p d
  unfold State.Cleared
  rw [State.append_mgmt, ← State.append_setMgmt]
  exact g

theorem State.append_setTrunk (s : State) (p : TrunkPort) (x : Trunk) (k : EventKind) (q : Option Port) (d : Option Half) :
    (s.setTrunk p x).append k q d = (s.append k q d).setTrunk p x := by
  unfold State.append
  rw [State.setTrunk_events]
  split <;> cases p <;> rfl

theorem State.mgmt_removeEntry (s : State) (q : Port) (e : Entry) : (s.removeEntry q e).mgmt = (s.unwatch q e.frame).mgmt := by
  unfold State.removeEntry
  rw [State.dropRef_mgmt]
  exact State.unwatch_mgmt_congr (by simp) q e.frame

theorem State.cleared_removeEntry (h : s.roomy) (q : Port) (e : Entry) :
    (s.setQueues q ((s.queues q).without e)).Cleared (s.removeEntry q e) := by
  unfold State.Cleared
  rw [State.mgmt_removeEntry]
  exact s.restored_removeEntry h q e

theorem State.setQueues_setQueues (s : State) (q : Port) (x y : QueueSet) :
    (s.setQueues q x).setQueues q y = s.setQueues q y := by cases q <;> rfl

theorem State.setQueues_self (s : State) (q : Port) : s.setQueues q (s.queues q) = s := by cases q <;> rfl

/-- Entries removed one after another in a store with room. -/
theorem State.cleared_foldl_removeEntry (q : Port) (l : List Entry) : ∀ s : State, s.roomy →
    (s.setQueues q (l.foldl QueueSet.without (s.queues q))).Cleared (l.foldl (fun t e => t.removeEntry q e) s) := by
  induction l with
  | nil =>
    intro s h
    rw [List.foldl_nil, List.foldl_nil, State.setQueues_self]
    exact (State.Restored.refl h).cleared
  | cons e l ih =>
    intro s h
    have k := s.cleared_removeEntry h q e
    have g := ih _ k.roomy
    have hq : (s.removeEntry q e).queues q = (s.queues q).without e := by
      rw [State.Restored.queues k q]; cases q <;> rfl
    rw [hq] at g
    rw [List.foldl_cons, List.foldl_cons]
    refine State.Cleared.trans ?_ g
    have k2 := State.Restored.setQueues k q (l.foldl QueueSet.without ((s.queues q).without e))
    unfold State.Cleared
    rw [State.setQueues_mgmt]
    cases q <;> exact k2

/-- The entries of a port that a predicate selects leave in a store with room. -/
theorem State.cleared_removeEntries (h : s.roomy) (q : Port) (f : Entry → Bool) :
    (s.setQueues q ((s.queues q).keep (fun e => !f e))).Cleared (s.removeEntries q f) := by
  rw [← QueueSet.foldl_without]
  exact State.cleared_foldl_removeEntry q _ s h

/-- Entries none of which is watched leave the pending reset as it is. -/
theorem State.foldl_removeEntry_mgmt {q : Port} (l : List Entry) : ∀ s : State,
    (∀ e ∈ l, s.watches q e.frame = false) → (l.foldl (fun t e => t.removeEntry q e) s).mgmt = s.mgmt := by
  induction l with
  | nil => exact fun s _ => rfl
  | cons e l ih =>
    intro s h
    have hm : (s.removeEntry q e).mgmt = s.mgmt := by
      rw [State.mgmt_removeEntry, State.unwatch_mgmt_other (h e List.mem_cons_self)]
    rw [List.foldl_cons, ih _ fun x hx => by rw [State.watches_of_mgmt hm]; exact h x (List.mem_cons_of_mem _ hx), hm]

theorem State.mgmt_removeEntries {q : Port} (f : Entry → Bool)
    (h : ∀ e ∈ (s.queues q).entries, f e = true → s.watches q e.frame = false) : (s.removeEntries q f).mgmt = s.mgmt :=
  State.foldl_removeEntry_mgmt _ s fun e he => by
    rw [List.mem_filter] at he
    exact h e he.1 he.2

theorem State.watches_unwatched {scope : ResetScope} (h : s.mgmt = u.unwatched scope) (q : Port) (r : Nat) :
    s.watches q r = false := by
  simp [State.watches, h, State.unwatched]

theorem State.watches_pending {scope : ResetScope} {q : Port} {r : Nat}
    (h : s.mgmt.executor = .resetPending { scope := scope, watched := some (q, r) }) (y : Port) (x : Nat) :
    s.watches y x = decide (q = y ∧ r = x) := by
  simp [State.watches, h]

/-- Entries the watched one is among end the watch. -/
theorem State.foldl_removeEntry_unwatched {q : Port} {r : Nat} {scope : ResetScope} (l : List Entry) : ∀ s : State,
    s.mgmt.executor = .resetPending { scope := scope, watched := some (q, r) } → (∃ e ∈ l, e.frame = r) →
    (l.foldl (fun t e => t.removeEntry q e) s).mgmt = s.unwatched scope := by
  induction l with
  | nil => rintro s - ⟨e, he, -⟩; cases he
  | cons e l ih =>
    intro s h hl
    rw [List.foldl_cons]
    by_cases he : e.frame = r
    · have hm : (s.removeEntry q e).mgmt = s.unwatched scope := by
        rw [State.mgmt_removeEntry, he, State.unwatch_watched q r scope h]
      rw [State.foldl_removeEntry_mgmt l _ fun x _ => State.watches_unwatched hm q x.frame, hm]
    · have hm : (s.removeEntry q e).mgmt = s.mgmt := by
        rw [State.mgmt_removeEntry, State.unwatch_mgmt_other]
        rw [State.watches_pending h]
        exact decide_eq_false fun k => he k.2.symm
      rw [ih _ (by rw [hm]; exact h) (by
        obtain ⟨x, hx, hr⟩ := hl
        rcases List.mem_cons.mp hx with rfl | hx
        · exact absurd hr he
        · exact ⟨x, hx, hr⟩)]
      simp [State.unwatched, hm]

theorem State.removeEntries_unwatched {q : Port} {r : Nat} {scope : ResetScope} (f : Entry → Bool)
    (h : s.mgmt.executor = .resetPending { scope := scope, watched := some (q, r) })
    (he : ∃ e ∈ (s.queues q).entries, f e = true ∧ e.frame = r) : (s.removeEntries q f).mgmt = s.unwatched scope := by
  obtain ⟨e, hm, hf, hr⟩ := he
  exact State.foldl_removeEntry_unwatched _ s h ⟨e, List.mem_filter.mpr ⟨hm, hf⟩, hr⟩

/-! ### The frame in flight at a DOWN event -/

theorem State.leaveFlight_mgmt {p : TrunkPort} {e : Entry} (hf : (s.tx p).inFlight = some e) :
    (s.leaveFlight p).mgmt = (s.unwatch (portOf p) e.frame).mgmt := by
  unfold State.leaveFlight
  rw [hf]
  exact (State.mgmt_removeEntry _ _ _).trans (State.unwatch_mgmt_congr (by simp) _ _)

theorem Transmitter.sound_flight {x : Transmitter} (h : x.sound = true) (hs : x.state ≠ .idle) : ∃ e, x.inFlight = some e := by
  rw [← Option.isSome_iff_exists]
  simp only [Transmitter.sound, Bool.and_eq_true, Bool.or_eq_true, decide_eq_true_eq] at h
  exact h.1.1.1.resolve_left hs

theorem Transmitter.sound_acked {x : Transmitter} (h : x.sound = true) (hs : x.state ≠ .sending) : x.acked = false := by
  simp only [Transmitter.sound, Bool.and_eq_true, Bool.or_eq_true, Bool.not_eq_true', decide_eq_true_eq] at h
  exact h.1.2.resolve_right hs

/-- An acknowledged copy is the one frame that leaves under KEEP (R84). -/
theorem Transmitter.leavesAtDown_keep {x : Transmitter} (h : x.sound = true) :
    x.leavesAtDown .keep = true ↔ x.state = .sending ∧ x.acked = true := by
  simp only [Transmitter.leavesAtDown, Bool.and_eq_true, Bool.or_eq_true, decide_eq_true_eq, reduceCtorEq, false_and,
    or_false, and_iff_right_iff_imp]
  intro k
  obtain ⟨e, he⟩ := Transmitter.sound_flight h (by rw [k.1]; decide)
  rw [he]; rfl

theorem Transmitter.atDown_stays {x : Transmitter} {policy : LinkPolicy} (h : x.leavesAtDown policy = false)
    (hs : x.state = .idle ∨ x.state = .held) : x.atDown policy = x := by
  unfold Transmitter.atDown
  rw [if_neg (by simp [h]), if_pos hs]

theorem Transmitter.atDown_suspends {x : Transmitter} {policy : LinkPolicy} (h : x.leavesAtDown policy = false)
    (hs : ¬ (x.state = .idle ∨ x.state = .held)) : x.atDown policy = { x with state := .idle, timer := none } := by
  unfold Transmitter.atDown
  rw [if_neg (by simp [h]), if_neg hs]

theorem Transmitter.atDown_leaves {x : Transmitter} {policy : LinkPolicy} (h : x.leavesAtDown policy = true) :
    x.atDown policy = x.vacated := if_pos h

theorem Transmitter.suspended_of_not_acked {x : Transmitter} (h : x.acked = false) :
    x.suspended = { x with state := .idle, timer := none } := by
  unfold Transmitter.suspended
  rw [← h]

/-- A suspension that no acknowledged copy ends (R84): one change of the port. -/
theorem State.suspend_stays {p : TrunkPort} (hs : (s.tx p).sound = true) (h : (s.tx p).leavesAtDown .keep = false) :
    s.suspend p = s.setTrunk p { s.trunk p with tx := (s.tx p).atDown .keep } := by
  have self : s.setTrunk p { s.trunk p with tx := s.tx p } = s := by cases p <;> rfl
  have kept : ¬ ((s.tx p).state = .sending ∧ (s.tx p).acked = true) := fun k => by
    rw [(Transmitter.leavesAtDown_keep hs).mpr k] at h; cases h
  unfold State.suspend
  cases hx : (s.tx p).state with
  | idle => exact (self.symm.trans (by rw [Transmitter.atDown_stays h (.inl hx)]))
  | held => exact (self.symm.trans (by rw [Transmitter.atDown_stays h (.inr hx)]))
  | sending =>
    have ha : (s.tx p).acked = false := by simpa [hx] using kept
    dsimp only
    rw [if_neg (by simp [ha]), State.onTx_eq, Transmitter.atDown_suspends h (by simp [hx]), ← State.tx_eq,
      Transmitter.suspended_of_not_acked ha]
  | awaitingAck | retryWait =>
    have ha := Transmitter.sound_acked hs (by simp [hx])
    dsimp only
    rw [State.onTx_eq, Transmitter.atDown_suspends h (by simp [hx]), ← State.tx_eq, Transmitter.suspended_of_not_acked ha]

theorem State.suspend_leaves {p : TrunkPort} (hs : (s.tx p).sound = true) (h : (s.tx p).leavesAtDown .keep = true) :
    s.suspend p = s.leaveFlight p := by
  obtain ⟨hx, ha⟩ := (Transmitter.leavesAtDown_keep hs).mp h
  unfold State.suspend
  rw [hx]
  exact if_pos ha

theorem QueueSet.atDown_keep_stays {x : Transmitter} (q : QueueSet) (h : x.leavesAtDown .keep = false) :
    q.atDown x .keep = q := by
  unfold QueueSet.atDown
  cases x.inFlight with
  | none => rfl
  | some e => exact if_neg (by simp [h])

/-- The transmitter's part of a DOWN event, in a store with room. -/
theorem State.cleared_suspend (h : s.roomy) {p : TrunkPort} (hs : (s.tx p).sound = true) :
    (s.setTrunk p { s.trunk p with
      tx := (s.tx p).atDown .keep, queues := (s.trunk p).queues.atDown (s.tx p) .keep }).Cleared (s.suspend p) := by
  cases hl : (s.tx p).leavesAtDown .keep with
  | false =>
    rw [s.suspend_stays hs hl, QueueSet.atDown_keep_stays _ hl]
    exact State.Restored.cleared (.refl (by simpa [State.roomy] using h))
  | true =>
    obtain ⟨hx, -⟩ := (Transmitter.leavesAtDown_keep hs).mp hl
    obtain ⟨e, he⟩ := Transmitter.sound_flight hs (by rw [hx]; decide)
    have k := s.restored_leaveFlight h he
    have hq : (s.trunk p).queues.atDown (s.tx p) .keep = (s.trunk p).queues.without e := by
      unfold QueueSet.atDown
      rw [he]
      exact if_pos hl
    rw [s.suspend_leaves hs hl, Transmitter.atDown_leaves hl, hq]
    unfold State.Cleared
    rw [State.leaveFlight_mgmt he]
    exact k

/-! ### The flush (R86) -/

/-- What the flush makes of a transmitter that has acted. -/
theorem Transmitter.atDown_flush {x : Transmitter} (hs : x.sound = true) : x.atDown .flush =
    if (x.atDown .keep).state = .held ∨ (x.atDown .keep).inFlight.isNone = true then x.atDown .keep
    else (x.atDown .keep).vacated := by
  cases hl : x.leavesAtDown .keep with
  | true =>
    have hf : x.leavesAtDown .flush = true := by
      obtain ⟨hx, ha⟩ := (Transmitter.leavesAtDown_keep hs).mp hl
      obtain ⟨e, he⟩ := Transmitter.sound_flight hs (by rw [hx]; decide)
      simp [Transmitter.leavesAtDown, hx, he]
    rw [Transmitter.atDown_leaves hf, Transmitter.atDown_leaves hl]
    simp [Transmitter.vacated]
  | false =>
    have flush : x.leavesAtDown .flush = (x.inFlight.isSome && decide (x.state ≠ .held)) := by
      have no : (decide (x.state = .sending) && x.acked) = false := by
        rw [← Bool.not_eq_true, Bool.and_eq_true, decide_eq_true_eq, ← Transmitter.leavesAtDown_keep hs, hl]
        decide
      simp [Transmitter.leavesAtDown, no]
    by_cases hi : x.state = .idle ∨ x.state = .held
    · rw [Transmitter.atDown_stays hl hi]
      split
      · next k =>
        exact Transmitter.atDown_stays (by
          rw [flush]; rcases k with k | k
          · simp [k]
          · rw [Option.isNone_iff_eq_none] at k; simp [k]) hi
      · next k =>
        refine Transmitter.atDown_leaves ?_
        rw [flush]
        simpa [not_or, Option.isSome_iff_ne_none, and_comm] using k
    · obtain ⟨e, he⟩ := Transmitter.sound_flight hs (fun k => hi (.inl k))
      have gone : x.leavesAtDown .flush = true := by
        rw [flush, he]
        simpa using fun k => hi (.inr k)
      rw [Transmitter.atDown_suspends hl hi, Transmitter.atDown_leaves gone, if_neg (by simp [he])]
      rfl

/-- The entries a flush keeps: the held head alone. -/
theorem QueueSet.atDown_flush (q : QueueSet) {x : Transmitter} (hs : x.sound = true) :
    q.atDown x .flush = (q.atDown x .keep).keep (fun y =>
      decide ((x.atDown .keep).state = .held) && decide ((x.atDown .keep).inFlight = some y)) := by
  have none_left : ∀ (z : QueueSet) (f : Entry → Bool), (∀ y, f y = false) → z.keep f = .empty := by
    intro z f hf
    simp [QueueSet.keep, QueueSet.empty, hf]
  cases hl : x.leavesAtDown .keep with
  | true =>
    obtain ⟨hx, -⟩ := (Transmitter.leavesAtDown_keep hs).mp hl
    obtain ⟨e, he⟩ := Transmitter.sound_flight hs (by rw [hx]; decide)
    rw [none_left _ _ fun y => by rw [Transmitter.atDown_leaves hl]; rfl]
    unfold QueueSet.atDown
    rw [he]
    exact none_left _ _ fun y => by simp [hx]
  | false =>
    rw [QueueSet.atDown_keep_stays _ hl]
    have same : ∀ y, (decide ((x.atDown .keep).state = .held) && decide ((x.atDown .keep).inFlight = some y)) =
        (decide (x.state = .held) && decide (x.inFlight = some y)) := by
      intro y
      by_cases hi : x.state = .idle ∨ x.state = .held
      · rw [Transmitter.atDown_stays hl hi]
      · rw [Transmitter.atDown_suspends hl hi]
        have nh : x.state ≠ .held := fun k => hi (.inr k)
        simp [nh]
    simp only [same]
    unfold QueueSet.atDown
    cases he : x.inFlight with
    | none => exact (none_left _ _ fun _ => rfl).trans (none_left _ _ fun y => by simp).symm
    | some e =>
      dsimp only
      congr 1
      funext y
      simp [Bool.decide_and, eq_comm]

/-- The flush of a DOWN event, in a store with room. -/
theorem State.cleared_flushDown (h : s.roomy) {p : TrunkPort} (hp : s.params.linkDownPolicy = .flush) :
    (s.setTrunk p { s.trunk p with
      tx := if (s.tx p).state = .held ∨ (s.tx p).inFlight.isNone = true then s.tx p else (s.tx p).vacated
      queues := (s.trunk p).queues.keep (fun y =>
        decide ((s.tx p).state = .held) && decide ((s.tx p).inFlight = some y)) }).Cleared (s.flushDown p) := by
  have k := s.cleared_removeEntries h (portOf p) (fun e => !s.isHeldHead p e)
  have hk : (fun e => !!s.isHeldHead p e) = fun y => decide ((s.tx p).state = .held) && decide ((s.tx p).inFlight = some y) := by
    funext y
    rw [Bool.not_not]; rfl
  rw [hk, State.trunk_queues, State.setQueues_trunk] at k
  have htx : (s.removeEntries (portOf p) (fun e => !s.isHeldHead p e)).trunk p =
      { s.trunk p with queues := (s.trunk p).queues.keep (fun y =>
        decide ((s.tx p).state = .held) && decide ((s.tx p).inFlight = some y)) } := by
    rw [k.trunk p, State.trunk_setTrunk_same]
  unfold State.flushDown
  rw [if_pos hp]
  dsimp only
  split
  · next hc =>
    rw [if_pos (by simpa using hc)]
    exact k
  · next hc =>
    rw [if_neg (by simpa using hc), State.onTx_eq, htx]
    have g := k.setTrunk p { s.trunk p with
      tx := (s.tx p).vacated
      queues := (s.trunk p).queues.keep (fun y =>
        decide ((s.tx p).state = .held) && decide ((s.tx p).inFlight = some y)) }
    rw [State.setTrunk_setTrunk] at g
    rw [← State.tx_eq, Transmitter.advanced_cleared]
    exact g

/-! ### The DOWN event -/

/-- A receiver that ends at a DOWN event: whatever acted before it, it becomes `rx` with statistics `stats`, and its record
goes back. -/
def State.EndsReception (s : State) (p : TrunkPort) (f : State → State) (rx : Receiver) (stats : TrunkStats) : Prop :=
  ∀ u : State, u.roomy → (u.trunk p).rx = (s.trunk p).rx → (u.trunk p).stats = (s.trunk p).stats →
    (u.setTrunk p { u.trunk p with rx := rx, stats := stats }).gaveBack (s.trunk p).rx.reception.record? (f u) ∧ (f u).roomy

theorem State.gaveBack.restored {record : Option Nat} (h : s.gaveBack record t) (hr : t.roomy) : s.Restored t := by
  cases record with
  | none => rw [show t = s from h] at hr ⊢; exact .refl hr
  | some r =>
    refine ⟨t.store, t.loc.ingress, ?_, ?_, hr⟩
    · conv_lhs => rw [h.1]
      rw [h.1]; rfl
    · rw [h.1]

/-- An append changes the event queue alone, -/
theorem State.append_eq (s : State) (k : EventKind) (p : Option Port) (d : Option Half) :
    s.append k p d = { s with events := (s.append k p d).events } := by
  unfold State.append
  split <;> rfl

/-- and what it makes of that depends on the queue, node time and parameters. -/
theorem State.append_events_congr (he : t.events = s.events) (hn : t.nodeTime = s.nodeTime) (hp : t.params = s.params)
    (k : EventKind) (p : Option Port) (d : Option Half) : (t.append k p d).events = (s.append k p d).events := by
  have hr : t.newRecord k p d = s.newRecord k p d := by unfold State.newRecord; rw [he, hn]
  unfold State.append
  rw [he, hr, hp]
  split <;> rfl

theorem State.gaveBack.events {record : Option Nat} (h : s.gaveBack record t) (E : EventQueue) :
    State.gaveBack { s with events := E } record { t with events := E } := by
  cases record with
  | none => rw [show t = s from h]; exact rfl
  | some r =>
    obtain ⟨e, hi⟩ := h
    refine ⟨?_, hi⟩
    conv_lhs => rw [e]
    rfl

theorem State.gaveBack.same {record : Option Nat} (h : s.gaveBack record t) :
    t.events = s.events ∧ t.nodeTime = s.nodeTime ∧ t.params = s.params := by
  cases record with
  | none => rw [show t = s from h]; exact ⟨rfl, rfl, rfl⟩
  | some r => rw [h.1]; exact ⟨rfl, rfl, rfl⟩

theorem State.gaveBack.append {record : Option Nat} (h : s.gaveBack record t) (k : EventKind) (p : Option Port)
    (d : Option Half) : (s.append k p d).gaveBack record (t.append k p d) := by
  obtain ⟨he, hn, hp⟩ := h.same
  rw [s.append_eq, t.append_eq, State.append_events_congr he hn hp]
  exact h.events _

/-- The transmitter and the queues of a port after a DOWN event, in a store with room. -/
theorem State.cleared_down (h : s.roomy) {p : TrunkPort} (hs : (s.tx p).sound = true) :
    (s.setTrunk p { s.trunk p with
      tx := (s.tx p).atDown s.params.linkDownPolicy
      queues := (s.trunk p).queues.atDown (s.tx p) s.params.linkDownPolicy }).Cleared ((s.suspend p).flushDown p) := by
  have k := s.cleared_suspend h hs
  have hp : (s.suspend p).params = s.params := by simpa using State.Restored.params k
  cases policy : s.params.linkDownPolicy with
  | keep =>
    unfold State.flushDown
    rw [hp, policy, if_neg (by decide)]
    exact k
  | flush =>
    have g := State.cleared_flushDown (s := s.suspend p) k.roomy (p := p) (by rw [hp, policy])
    have htx : (s.suspend p).trunk p = { s.trunk p with
        tx := (s.tx p).atDown .keep, queues := (s.trunk p).queues.atDown (s.tx p) .keep } := by
      rw [k.trunk p, State.trunk_setTrunk_same]
    rw [State.tx_eq, htx, ← Transmitter.atDown_flush hs, ← QueueSet.atDown_flush _ hs] at g
    refine State.Cleared.trans ?_ g
    have e := k.setTrunk p { s.trunk p with
      tx := (s.tx p).atDown .flush, queues := (s.trunk p).queues.atDown (s.tx p) .flush }
    rwa [State.setTrunk_setTrunk] at e

theorem State.down_stays {p : TrunkPort} (hs : (s.tx p).sound = true) (hp : s.params.linkDownPolicy = .keep)
    (hl : (s.tx p).leavesAtDown .keep = false) :
    (s.suspend p).flushDown p = s.setTrunk p { s.trunk p with
      tx := (s.tx p).atDown .keep, queues := (s.trunk p).queues.atDown (s.tx p) .keep } := by
  rw [s.suspend_stays hs hl, QueueSet.atDown_keep_stays _ hl]
  exact if_neg (by simp [hp])

/-- The port after a DOWN event in which the receiver becomes `rx` and the statistics `stats`. -/
def State.downPort (s : State) (p : TrunkPort) (b : Bool) (rx : Receiver) (stats : TrunkStats) : Trunk :=
  { s.trunk p with
    link := { up := false, run := 0, silence := b }
    rx := rx
    stats := stats
    tx := (s.tx p).atDown s.params.linkDownPolicy
    queues := (s.trunk p).queues.atDown (s.tx p) s.params.linkDownPolicy }

/-- The blocks of a port whose link has been set DOWN, one after another. -/
theorem State.ends_down {p : TrunkPort} {b : Bool} {f : State → State} {rx : Receiver} {stats : TrunkStats}
    (hf : s.EndsReception p f rx stats) (hs : (s.tx p).sound = true) (h : u.roomy) (hp : u.params = s.params)
    (hu : u.trunk p = { s.trunk p with link := { up := false, run := 0, silence := b } }) :
    (u.setTrunk p (s.downPort p b rx stats)).Cleared (((f u).suspend p).flushDown p) ∧
      (s.params.linkDownPolicy = .keep → (s.tx p).leavesAtDown .keep = false →
        (u.setTrunk p (s.downPort p b rx stats)).gaveBack (s.trunk p).rx.reception.record?
          (((f u).suspend p).flushDown p)) := by
  obtain ⟨back, hroom⟩ := hf u h (by rw [hu]) (by rw [hu])
  have hfp : (f u).params = s.params := by
    rw [State.Restored.params (back.restored hroom), State.setTrunk_params, hp]
  have hft : (f u).trunk p = { u.trunk p with rx := rx, stats := stats } := by
    rw [back.trunk p, State.trunk_setTrunk_same]
  have htx : (f u).tx p = s.tx p := by rw [State.tx_eq, hft, hu]; rfl
  have port : { (f u).trunk p with
      tx := (s.tx p).atDown s.params.linkDownPolicy
      queues := ((f u).trunk p).queues.atDown (s.tx p) s.params.linkDownPolicy } = s.downPort p b rx stats := by
    rw [hft, hu]; rfl
  constructor
  · have k := (f u).cleared_down hroom (p := p) (by rw [htx]; exact hs)
    rw [htx, hfp, port] at k
    have g := (back.setTrunk p (s.downPort p b rx stats)).restored (by simpa [State.roomy] using hroom)
    rw [State.setTrunk_setTrunk] at g
    exact g.cleared.trans k
  · intro policy hl
    have k := State.down_stays (s := f u) (p := p) (by rw [htx]; exact hs) (hfp ▸ policy) (by rw [htx]; exact hl)
    rw [htx, ← policy, port] at k
    have g := back.setTrunk p (s.downPort p b rx stats)
    rw [State.setTrunk_setTrunk] at g
    rw [k]
    exact g

/-- The DOWN event of a link as a whole, the pending reset apart. -/
theorem State.linkDown_wentDown {p : TrunkPort} {b : Bool} {f : State → State} {rx : Receiver} {stats : TrunkStats}
    (hf : s.EndsReception p f rx stats) (h : s.roomy) (hs : (s.tx p).sound = true) (hev : s.events.records ≠ []) :
    State.wentDown { s with mgmt := (s.linkDown p b f).mgmt } p b rx stats (s.linkDown p b f) := by
  generalize hs1 : (s.onLink p (fun l => { l with up := false, run := 0, silence := b })).chosen = s1
  have trunk : s1.trunk p = { s.trunk p with link := { up := false, run := 0, silence := b } } := by
    rw [← hs1]; cases p <;> rfl
  have params : s1.params = s.params := by rw [← hs1]; cases p <;> rfl
  have events : s1.events = s.events := by rw [← hs1]; cases p <;> rfl
  have room : s1.roomy := by rw [← hs1]; cases p <;> exact h
  have behind : ∀ v : State, v.events = s.events → v.raiseEvent .linkDown (some (portOf p)) none =
      v.append .linkDown (some (portOf p)) none :=
    fun v hv => v.raiseEvent_behind _ _ _ (by rw [hv]; exact hev)
  have ended : ((s1.setTrunk p (s.downPort p b rx stats)).append .linkDown (some (portOf p)) none).Cleared
        (s.linkDown p b f) ∧
      (s.params.linkDownPolicy = .keep → (s.tx p).leavesAtDown .keep = false →
        ((s1.setTrunk p (s.downPort p b rx stats)).append .linkDown (some (portOf p)) none).gaveBack
          (s.trunk p).rx.reception.record? (s.linkDown p b f)) := by
    unfold State.linkDown
    dsimp only
    rw [hs1]
    split
    · rw [behind s1 events, State.append_setTrunk]
      exact State.ends_down hf hs (by unfold State.roomy; rw [State.append_store]; exact room)
        ((State.calm_append _ _ _ _).params.trans params)
        (by unfold State.append; split <;> cases p <;> exact trunk)
    · obtain ⟨k, g⟩ := State.ends_down hf hs room params trunk
      rw [behind _ (by rw [k.events, State.setTrunk_events, events])]
      exact ⟨k.append _ _ _, fun policy hl => (g policy hl).append _ _ _⟩
  generalize s.linkDown p b f = t at ended ⊢
  generalize hV : (s1.setTrunk p (s.downPort p b rx stats)).append .linkDown (some (portOf p)) none = V at ended
  have start : State.raiseEvent (State.setTrunk { s with mgmt := t.mgmt, choices := s.choices + 1 } p
      (s.downPort p b rx stats)) .linkDown (some (portOf p)) none = { V with mgmt := t.mgmt } := by
    have same : (State.setTrunk { s with mgmt := t.mgmt, choices := s.choices + 1 } p (s.downPort p b rx stats)) =
        { s1.setTrunk p (s.downPort p b rx stats) with mgmt := t.mgmt } := by
      rw [← hs1]; cases p <;> rfl
    rw [State.raiseEvent_behind _ _ _ (by rw [State.setTrunk_events]; exact hev), ← hV, same, State.append_setMgmt]
  have mem : V.store.mem = s.store.mem := by
    rw [← hV, State.append_store, ← hs1]; cases p <;> rfl
  have mgmt : V.mgmt = s.mgmt := by
    rw [← hV, State.append_mgmt, ← hs1]; cases p <;> rfl
  have port : ∀ m : Mgmt, State.downPort { s with mgmt := m } p b rx stats = s.downPort p b rx stats := fun m => by
    cases p <;> rfl
  obtain ⟨k, g⟩ := ended
  obtain ⟨st, x, e, hm, -⟩ := id k
  have shape : t = { ({ V with mgmt := t.mgmt } : State) with
      store := t.store
      loc := { ({ V with mgmt := t.mgmt } : State).loc with ingress := t.loc.ingress } } := by
    conv_lhs => rw [e]
    have hst : t.store = st := by rw [e]; rfl
    have hx : t.loc.ingress = x := by rw [e]; rfl
    rw [hst, hx]; rfl
  refine ⟨?_, ?_, fun policy hl => ?_⟩
  · refine shape.trans ?_
    rw [← start, ← port t.mgmt]
    cases p <;> rfl
  · exact (State.Restored.mem k).trans mem
  · have hV2 := g policy (by cases p <;> exact hl)
    have same : ({ V with mgmt := t.mgmt } : State) = V := by rw [hV2.mgmt]
    have goal := hV2
    rw [← same, ← start, ← port t.mgmt] at goal
    cases p <;> exact goal

end Sys2Proof.Machine

end

section
/-! SILENCE_TIMEOUT, and a port switched off (R60, R84 to R87, R96, R97). -/

namespace Sys2Proof.Machine

variable {s t u v : State}

/-! ### What a DOWN event makes of the pending reset -/

/-- Nothing that leaves is watched: nothing of the port is, or nothing leaves. -/
def State.LeavesUnwatched (s : State) (p : TrunkPort) : Prop :=
  (∀ r, s.watches (portOf p) r = false) ∨ s.params.linkDownPolicy = .keep ∧ (s.tx p).leavesAtDown .keep = false

theorem State.suspend_mgmt {p : TrunkPort} (hs : (s.tx p).sound = true)
    (h : ∀ e, (s.tx p).inFlight = some e → (s.tx p).leavesAtDown .keep = true → s.watches (portOf p) e.frame = false) :
    (s.suspend p).mgmt = s.mgmt := by
  cases hl : (s.tx p).leavesAtDown .keep with
  | false => rw [s.suspend_stays hs hl, State.setTrunk_mgmt]
  | true =>
    obtain ⟨hx, -⟩ := (Transmitter.leavesAtDown_keep hs).mp hl
    obtain ⟨e, he⟩ := Transmitter.sound_flight hs (by rw [hx]; decide)
    rw [s.suspend_leaves hs hl, State.leaveFlight_mgmt he, State.unwatch_mgmt_other (h e he hl)]

theorem State.flushDown_mgmt {p : TrunkPort}
    (h : s.params.linkDownPolicy = .flush → ∀ e ∈ (s.trunk p).queues.entries, s.watches (portOf p) e.frame = false) :
    (s.flushDown p).mgmt = s.mgmt := by
  unfold State.flushDown
  split
  · next hp =>
    have k : (s.removeEntries (portOf p) (fun e => !s.isHeldHead p e)).mgmt = s.mgmt :=
      State.mgmt_removeEntries _ fun e he _ => h hp e (by rwa [State.trunk_queues] at he)
    dsimp only
    split
    · exact k
    · rw [State.onTx_mgmt, k]
  · rfl

theorem State.down_mgmt {p : TrunkPort} (hs : (s.tx p).sound = true) (h : s.LeavesUnwatched p) :
    ((s.suspend p).flushDown p).mgmt = s.mgmt := by
  rcases h with h | ⟨hp, hl⟩
  · have k := s.suspend_mgmt hs fun e _ _ => h e.frame
    rw [State.flushDown_mgmt fun _ e _ => by rw [State.watches_of_mgmt k]; exact h e.frame, k]
  · rw [State.down_stays hs hp hl, State.setTrunk_mgmt]

/-- What a DOWN event makes of the management engine, where its blocks make the same of it in either order. -/
theorem State.linkDown_mgmt {p : TrunkPort} {b : Bool} {f : State → State} {m : Mgmt} (h0 : s.roomy)
    (hev : s.events.records ≠ [])
    (h : ∀ u : State, u.roomy → u.mgmt = s.mgmt → u.params = s.params →
      u.trunk p = { s.trunk p with link := { up := false, run := 0, silence := b } } →
      (((f u).suspend p).flushDown p).mgmt = m) : (s.linkDown p b f).mgmt = m := by
  generalize hs1 : (s.onLink p (fun l => { l with up := false, run := 0, silence := b })).chosen = s1
  have trunk : s1.trunk p = { s.trunk p with link := { up := false, run := 0, silence := b } } := by
    rw [← hs1]; cases p <;> rfl
  have params : s1.params = s.params := by rw [← hs1]; cases p <;> rfl
  have mgmt : s1.mgmt = s.mgmt := by rw [← hs1]; cases p <;> rfl
  have room : s1.roomy := by rw [← hs1]; cases p <;> exact h0
  have events : s1.events.records ≠ [] := by rw [← hs1]; cases p <;> exact hev
  unfold State.linkDown
  dsimp only
  rw [hs1]
  split
  · rw [s1.raiseEvent_behind _ _ _ events]
    exact h _ (by unfold State.roomy; rw [State.append_store]; exact room) ((s1.append_mgmt _ _ _).trans mgmt)
      ((s1.calm_append _ _ _).params.trans params) (by unfold State.append; split <;> cases p <;> exact trunk)
  · rw [State.raiseEvent_mgmt]
    exact h _ room mgmt params trunk

/-- The receiver's part of a DOWN event leaves transmitter, policy and pending reset alone. -/
theorem State.EndsReception.kept {p : TrunkPort} {f : State → State} {rx : Receiver} {stats : TrunkStats}
    (hf : s.EndsReception p f rx stats) (h : u.roomy) (hr : (u.trunk p).rx = (s.trunk p).rx)
    (hst : (u.trunk p).stats = (s.trunk p).stats) :
    (f u).tx p = u.tx p ∧ ((f u).trunk p).queues = (u.trunk p).queues ∧ (f u).params = u.params ∧ (f u).mgmt = u.mgmt := by
  obtain ⟨back, hroom⟩ := hf u h hr hst
  refine ⟨?_, ?_, ?_, ?_⟩
  · rw [State.tx_eq, back.trunk p, State.trunk_setTrunk_same]; rfl
  · rw [back.trunk p, State.trunk_setTrunk_same]
  · rw [(back.restored hroom).params, State.setTrunk_params]
  · rw [back.mgmt, State.setTrunk_mgmt]

theorem State.linkDown_mgmt_kept {p : TrunkPort} {b : Bool} {f : State → State} {rx : Receiver} {stats : TrunkStats}
    (hf : s.EndsReception p f rx stats) (h : s.roomy) (hs : (s.tx p).sound = true) (hev : s.events.records ≠ [])
    (hw : s.LeavesUnwatched p) : (s.linkDown p b f).mgmt = s.mgmt := by
  refine State.linkDown_mgmt h hev fun u hu hm hp ht => ?_
  obtain ⟨htx, -, hpar, hmg⟩ := hf.kept hu (by rw [ht]) (by rw [ht])
  have same : (f u).tx p = s.tx p := by rw [htx, State.tx_eq, ht]; rfl
  rw [State.down_mgmt (by rw [same]; exact hs), hmg, hm]
  unfold State.LeavesUnwatched
  rw [same, hpar, hp]
  exact hw.imp_left fun w r => by rw [State.watches_of_mgmt (hmg.trans hm)]; exact w r

/-- The DOWN event of a link that no watched response leaves at. -/
theorem State.linkDown_unwatched {p : TrunkPort} {b : Bool} {f : State → State} {rx : Receiver} {stats : TrunkStats}
    (hf : s.EndsReception p f rx stats) (h : s.roomy) (hs : (s.tx p).sound = true) (hev : s.events.records ≠ [])
    (hw : s.LeavesUnwatched p) : s.wentDown p b rx stats (s.linkDown p b f) := by
  have k := State.linkDown_wentDown (b := b) hf h hs hev
  rwa [State.linkDown_mgmt_kept hf h hs hev hw] at k

/-! ### The receivers (R60) -/

/-- The statistics of a port whose reception a silence ends (R60). -/
abbrev State.silenced (s : State) (p : TrunkPort) : TrunkStats :=
  match (s.trunk p).rx.reception with
  | .waitSof => (s.trunk p).stats
  | .header _ => { (s.trunk p).stats with headerErrors := satInc (s.trunk p).stats.headerErrors }
  | .payload _ | .check _ => { (s.trunk p).stats with checkFailures := satInc (s.trunk p).stats.checkFailures }

/-- A receiver reset to WAIT_SOF whose record, where it has one, is abandoned, and one statistic raised. -/
theorem State.abandoned_gaveBack (h : s.roomy) (p : TrunkPort) (rx : Receiver) (record : Option Nat) (k : TrunkStat) :
    (s.setTrunk p { s.trunk p with rx := rx, stats := (s.trunk p).stats.on satInc k }).gaveBack record
        (((s.onRx p (fun _ => rx)).abandon record).raiseTrunk p k) ∧
      (((s.onRx p (fun _ => rx)).abandon record).raiseTrunk p k).roomy := by
  obtain ⟨back, hr⟩ := (s.onRx p (fun _ => rx)).abandon_gaveBack record (.inr (by simpa [State.roomy] using h))
  have room := hr (by simpa [State.roomy] using h)
  refine ⟨?_, by simpa [State.roomy] using room⟩
  have g := back.setTrunk p { s.trunk p with rx := rx, stats := (s.trunk p).stats.on satInc k }
  rw [State.onRx_eq, State.setTrunk_setTrunk] at g
  rw [State.raiseTrunk_eq, back.trunk p, State.onRx_eq, State.trunk_setTrunk_same]
  exact g

theorem State.endsReception_loseFrame {p : TrunkPort}
    (h : ∀ f, (s.trunk p).rx.reception = .header f → f.frame = none) :
    s.EndsReception p (fun t => t.loseFrame p) { (s.trunk p).rx with reception := .waitSof } (s.silenced p) := by
  intro u hu hr hst
  have hrx : u.onRx p (fun x => { x with reception := .waitSof }) =
      u.onRx p (fun _ => { (s.trunk p).rx with reception := .waitSof }) := by
    rw [State.onRx_eq, State.onRx_eq, hr]
  unfold State.loseFrame State.silenced
  beta_reduce
  rw [hr, hrx]
  dsimp only
  cases hx : (s.trunk p).rx.reception with
  | waitSof =>
    have same : u.setTrunk p { u.trunk p with
        rx := { (s.trunk p).rx with reception := .waitSof }, stats := (s.trunk p).stats } = u := by
      rw [← hx, ← hst, ← hr]
      cases p <;> rfl
    refine ⟨?_, hu⟩
    rw [same]
    exact rfl
  | header f =>
    have k := u.abandoned_gaveBack hu p { (s.trunk p).rx with reception := .waitSof } none .headerErrors
    rw [hst] at k
    dsimp only [Reception.record?]
    rw [h f hx]
    exact k
  | payload f | check f =>
    have k := u.abandoned_gaveBack hu p { (s.trunk p).rx with reception := .waitSof } f.frame .checkFailures
    rw [hst] at k
    exact k

theorem State.endsReception_disableRx (s : State) (p : TrunkPort) :
    s.EndsReception p (fun t => t.disableRx p) { (s.trunk p).rx with reception := .waitSof, answers := [] }
      (s.trunk p).stats := by
  intro u hu hr hst
  obtain ⟨back, hroom⟩ := (u.onRx p (fun x => { x with reception := .waitSof, answers := [] })).abandon_gaveBack
    (u.trunk p).rx.reception.record? (.inr (by simpa [State.roomy] using hu))
  refine ⟨?_, hroom (by simpa [State.roomy] using hu)⟩
  rw [← hr, ← hst]
  exact back

/-! ### SILENCE_TIMEOUT -/

theorem exec_silenceTimeout_up {p : TrunkPort} (he : s.enabled p = true) (hl : (s.trunk p).link.silence = true)
    (hu : (s.trunk p).link.up = true) :
    exec (.silenceTimeout p) s = .next (s.linkDown p true (fun t => t.loseFrame p)).settle := by
  refine congrArg (fun t : State => Host.Outcome.next t.settle) ?_
  unfold State.silence
  rw [if_pos (by simp [he, hl]), if_pos hu]

/-- What a suspension makes of a transmitter whose copy is not acknowledged (R84). -/
def Transmitter.paused (x : Transmitter) : Transmitter := if x.state = .idle ∨ x.state = .held then x else x.suspended

theorem Transmitter.paused_kept (x : Transmitter) : x.paused.inFlight = x.inFlight ∧ x.paused.txSeq = x.txSeq ∧
    x.paused.attempts = x.attempts ∧ x.paused.sent = x.sent := by
  unfold Transmitter.paused
  split <;> exact ⟨rfl, rfl, rfl, rfl⟩

theorem State.suspend_paused {p : TrunkPort} (ha : (s.tx p).acked = false) :
    s.suspend p = s.onTx p (fun _ => (s.tx p).paused) := by
  have self : s.onTx p (fun _ => s.tx p) = s := by cases p <;> rfl
  unfold State.suspend Transmitter.paused
  cases hx : (s.tx p).state with
  | idle => exact self.symm.trans (by simp)
  | held => exact self.symm.trans (by simp)
  | sending => dsimp only; rw [if_neg (by simp [ha]), if_neg (by simp)]; rfl
  | awaitingAck | retryWait => dsimp only; rw [if_neg (by simp)]; rfl

/-- A DOWN event in which no block but the transmitter acts, whatever the event queue holds. -/
theorem State.linkDown_pauses {p : TrunkPort} {b : Bool} (hx : (s.trunk p).rx.reception = .waitSof)
    (ha : (s.tx p).acked = false) (hp : s.params.linkDownPolicy = .keep) (hl : s.events.records.length < 32) :
    Calm ((s.onLink p (fun l => { l with up := false, run := 0, silence := b })).chosen.onTx p (fun _ => (s.tx p).paused))
        (s.linkDown p b (fun t => t.loseFrame p)) ∧
      (s.linkDown p b (fun t => t.loseFrame p)).mgmt = s.mgmt ∧
      ∃ e ∈ (s.linkDown p b (fun t => t.loseFrame p)).events.records, e.kind = .linkDown ∧ e.port = some (portOf p) := by
  generalize hs1 : (s.onLink p (fun l => { l with up := false, run := 0, silence := b })).chosen = s1
  have mgmt : s1.mgmt = s.mgmt := by rw [← hs1]; cases p <;> rfl
  have blocks : ∀ u, Calm s1 u → ((u.loseFrame p).suspend p).flushDown p = u.onTx p (fun _ => (s.tx p).paused) := by
    intro u hu
    have rx : (u.trunk p).rx = (s.trunk p).rx := (hu.rx p).trans (by rw [← hs1]; cases p <;> rfl)
    have tx : u.tx p = s.tx p := (hu.tx p).trans (by rw [← hs1]; cases p <;> rfl)
    have params : u.params = s.params := hu.params.trans (by rw [← hs1]; cases p <;> rfl)
    have lost : u.loseFrame p = u := by
      unfold State.loseFrame
      rw [rx, hx]
    rw [lost, State.suspend_paused (by rw [tx]; exact ha), tx]
    exact if_neg (by simp [params, hp])
  have stored : ∀ u : State, u.events = s1.events → ∃ e ∈ (u.raiseEvent .linkDown (some (portOf p)) none).events.records,
      e.kind = .linkDown ∧ e.port = some (portOf p) := by
    intro u hu
    obtain ⟨l, h⟩ := u.raiseEvent_stored (by rw [hu, ← hs1]; cases p <;> exact hl) .linkDown (some (portOf p)) none
    exact ⟨u.newRecord .linkDown (some (portOf p)) none, by rw [h]; simp, rfl, rfl⟩
  unfold State.linkDown
  dsimp only
  rw [hs1]
  split
  · rw [blocks _ (s1.calm_raiseEvent _ _ _)]
    refine ⟨(s1.calm_raiseEvent _ _ _).onTx p _, ?_, ?_⟩
    · rw [State.onTx_mgmt, State.raiseEvent_mgmt, mgmt]
    · rw [State.onTx_events]
      exact stored s1 rfl
  · rw [blocks s1 (.refl s1)]
    refine ⟨State.calm_raiseEvent _ _ _ _, ?_, stored _ (by simp)⟩
    rw [State.raiseEvent_mgmt, State.onTx_mgmt, mgmt]

/-- Settles O19. -/
theorem silenceTimeoutEffect : Obligations.SilenceTimeoutEffect := by
  intro s p he hl hd
  refine ⟨fun hu => ?_, fun hu hx ha hp hlen => ?_, fun hu hs hroom hev hrx hw => ?_⟩
  · refine congrArg Host.Outcome.next ?_
    have broken : s.silence p = s.setTrunk p { s.trunk p with link := { up := false, run := 0, silence := true } } := by
      unfold State.silence
      rw [if_pos (by simp [he, hl]), if_neg (by simp [hu]), State.onLink_eq, hu]
    rw [broken, s.settle_of_mgmt (by simp) hd]
  · obtain ⟨calm, hm, hrec⟩ := State.linkDown_pauses (b := true) hx ha hp hlen
    have tx : (s.linkDown p true (fun t => t.loseFrame p)).tx p = (s.tx p).paused :=
      (calm.tx p).trans (by cases p <;> rfl)
    obtain ⟨hf, hq, hn, hsent⟩ := (s.tx p).paused_kept
    refine ⟨_, ?_, ?_, ?_, ?_, tx ▸ hf, tx ▸ hq, tx ▸ hn, tx ▸ hsent, hrec, ?_, ?_, ?_⟩
    · rw [exec_silenceTimeout_up he hl hu, s.settle_of_mgmt hm hd]
    · rw [calm.link p]; cases p <;> rfl
    · rw [calm.rx p]; cases p <;> rfl
    · rw [tx]
      unfold Transmitter.paused
      cases hst : (s.tx p).state <;> simp [hst, Transmitter.suspended]
    · rw [calm.steer]; cases p <;> rfl
    · rw [calm.session]; cases p <;> rfl
    · rw [calm.params]; cases p <;> rfl
  · have unwatched : s.LeavesUnwatched p := by
      by_cases h : ∃ r, s.watches (portOf p) r = true
      · obtain ⟨r, hr⟩ := h
        exact .inr (hw r hr)
      · exact .inl fun r => Bool.eq_false_of_not_eq_true fun hr => h ⟨r, hr⟩
    have ends := s.endsReception_loseFrame hrx
    refine ⟨_, ?_, State.linkDown_unwatched (b := true) ends hroom hs hev unwatched⟩
    rw [exec_silenceTimeout_up he hl hu, s.settle_of_mgmt (State.linkDown_mgmt_kept ends hroom hs hev unwatched) hd]

/-! ### PORT_ENABLE_WRITE -/

/-- A PORT_ENABLE_WRITE that the checks pass. -/
theorem exec_portEnableWrite {e : Execution} {c : Cmd} {rest : List Cmd} {n lo : Byte} (h : s.standsAt e c rest)
    (hargs : c.args = [n, 0, lo]) (ha : e.admits c 0x0F 0) (hn : n = 17 ∨ n = 18) (hlo : lo = 0 ∨ lo = 1)
    (hl : s.lockRefuses e.requester = false) :
    exec .portEnableWrite s = .next ((s.writeEnable n.toNat lo.toNat).answerCmd e c rest .ok [] none) := by
  have names : namesEnable c = true := by
    unfold namesEnable
    rw [hargs]
    rcases hn with rfl | rfl <;> rfl
  refine congrArg Host.Outcome.next (runCommand_pass h ha (by rw [hasCode_of_admits ha, names]; rfl) ?_ (Nat.le_refl 0))
  unfold writeChecked Call.arg
  rw [hargs]
  dsimp only
  have hv : (half 0 lo).toNat = lo.toNat := by rcases hlo with rfl | rfl <;> decide
  have hh : halfAt [n, 0, lo] 1 = half 0 lo := rfl
  have ha0 : byteAt [n, 0, lo] 0 = n := rfl
  rw [hh, hv, ha0, hl]
  rcases hn with rfl | rfl <;> rcases hlo with rfl | rfl <;> rfl

theorem State.watches_executing {e : Execution} (h : s.mgmt.executor = .executing e) (q : Port) (r : Nat) :
    s.watches q r = false := by
  simp [State.watches, h]

/-- Settles O46. -/
theorem portEnableWriteSwitches : Obligations.PortEnableWriteSwitches := by
  intro s e c rest p n lo h hargs ha hn hl
  have port : (if n.toNat = 17 then TrunkPort.a else .b) = p := by
    rcases hn with ⟨rfl, rfl⟩ | ⟨rfl, rfl⟩ <;> rfl
  have hn' : n = 17 ∨ n = 18 := hn.imp (·.2) (·.2)
  have taken : ∀ {t : State}, lo = 0 ∨ lo = 1 → s.writeEnable n.toNat lo.toNat = t →
      exec .portEnableWrite s = .next (t.answerCmd e c rest .ok [] none) := fun {t} hlo ht => by
    rw [exec_portEnableWrite h hargs ha hn' hlo hl, ht]
  have off : lo = 0 → s.enabled p = true →
      s.writeEnable n.toNat lo.toNat = State.switchOff { s with params := setParam s.params n.toNat 0 } p := by
    rintro rfl he
    unfold State.writeEnable
    rw [port]
    dsimp only
    rw [he]
    rfl
  have trunk : ∀ q : Params, State.trunk { s with params := q } p = s.trunk p := fun q => by cases p <;> rfl
  refine ⟨fun hlo => ?_, fun hlo he => ?_, fun hlo he hu hr => ?_, fun hlo he hu hs hroom hev => ?_⟩
  · refine taken (hlo.imp (·.1) (·.1)) ?_
    unfold State.writeEnable
    rw [port]
    dsimp only
    rcases hlo with ⟨rfl, he⟩ | ⟨rfl, he⟩ <;> exact if_pos he
  · refine taken (.inr hlo) ?_
    subst hlo
    unfold State.writeEnable
    rw [port]
    dsimp only
    rw [he]
    cases p <;> rfl
  · have down : State.switchOff { s with params := setParam s.params n.toNat 0 } p =
        State.disableRx (State.setTrunk { s with params := setParam s.params n.toNat 0 } p { s.trunk p with
          link := { up := false, run := 0, silence := false } }) p := by
      unfold State.switchOff
      rw [trunk, hu, if_neg (by decide), State.onLink_eq, trunk, hu]
    refine ⟨_, taken (.inl hlo) ((off hlo he).trans down), ?_⟩
    generalize hw : State.setTrunk { s with params := setParam s.params n.toNat 0 } p { s.trunk p with
      link := { up := false, run := 0, silence := false } } = w
    have hrx : (w.trunk p).rx = (s.trunk p).rx := by rw [← hw, State.trunk_setTrunk_same]
    have back := ((w.onRx p (fun x => { x with reception := .waitSof, answers := [] })).abandon_gaveBack
      (w.trunk p).rx.reception.record? (hr.imp (by rw [hrx]; exact id) (fun k => by rw [← hw]; cases p <;> exact k))).1
    have start : w.onRx p (fun x => { x with reception := .waitSof, answers := [] }) =
        State.setTrunk { s with params := setParam s.params n.toNat 0 } p { s.trunk p with
          link := { up := false, run := 0, silence := false }
          rx := { (s.trunk p).rx with reception := .waitSof, answers := [] } } := by
      rw [← hw]; cases p <;> rfl
    rw [start, hrx] at back
    unfold State.disableRx
    rw [start, hrx]
    exact back
  · generalize hw : ({ s with params := setParam s.params n.toNat 0 } : State) = w
    have wtrunk : w.trunk p = s.trunk p := by rw [← hw]; exact trunk _
    have up : w.switchOff p = w.linkDown p false (fun t => t.disableRx p) := by
      unfold State.switchOff
      rw [wtrunk, hu]
      rfl
    have unwatched : w.LeavesUnwatched p :=
      .inl fun r => State.watches_executing (by rw [← hw]; exact h.1) _ _
    refine ⟨_, taken (.inl hlo) (((off hlo he).trans (by rw [hw])).trans up), ?_⟩
    have k := State.linkDown_unwatched (b := false) (w.endsReception_disableRx p) (by rw [← hw]; exact hroom)
      (by rw [State.tx_eq, wtrunk]; exact hs) (by rw [← hw]; exact hev) unwatched
    rwa [wtrunk] at k

end Sys2Proof.Machine

end

section
/-! A watched response that a DOWN event does not find in its queue. -/

namespace Sys2Proof.Machine

variable {s t : State}

theorem State.wentDown.mgmt {p : TrunkPort} {b : Bool} {rx : Receiver} {stats : TrunkStats}
    (h : s.wentDown p b rx stats t) : t.mgmt = s.mgmt := by
  obtain ⟨e, -⟩ := h
  rw [e]
  exact (State.raiseEvent_mgmt _ _ _ _).trans (State.setTrunk_mgmt _ _ _)

theorem State.settle_watched {r : PendingReset} (h : s.mgmt.executor = .resetPending r) (hw : r.watched.isSome = true) :
    s.settle = s := by
  refine s.settle_of_not_due ?_
  unfold State.resetDue
  rw [h]
  simpa using hw

/-- A node whose port A has the watched response in flight while no queue of the port holds it, under FLUSH, with a full
reset pending. -/
def orphanedWatch : State :=
  { State.reset with
    trunkA :=
      { Trunk.initial with
        link := { up := true, run := 64, silence := true }
        tx := { Transmitter.initial with inFlight := some { cls := 0, frame := 0 } } }
    mgmt := { State.reset.mgmt with executor := .resetPending { scope := .full, watched := some (.a, 0) } }
    params := { Params.initial with linkDownPolicy := .flush } }

theorem orphanedWatch_roomy : orphanedWatch.roomy := by
  refine .inr ?_
  have hf : orphanedWatch.store.freePages = List.range Config.pageCount := by simp only [orphanedWatch, State.reset]
  rw [hf, List.length_range]
  decide

/-- Its DOWN event clears the transmitter, but no entry leaves a queue: the response stays watched. -/
theorem orphanedWatch_linkDown :
    (orphanedWatch.linkDown .a true (fun t => t.loseFrame .a)).mgmt = orphanedWatch.mgmt := by
  refine State.linkDown_mgmt orphanedWatch_roomy (by decide) fun u _ hm hp ht => ?_
  have lost : u.loseFrame .a = u := by
    unfold State.loseFrame
    rw [ht]; rfl
  have idle : u.suspend .a = u := by
    unfold State.suspend
    rw [State.tx_eq, ht]; rfl
  have empty : ∀ f, u.removeEntries .a f = u := fun f => by
    have hq : u.queues .a = .empty := congrArg Trunk.queues ht
    unfold State.removeEntries
    rw [hq]; rfl
  have policy : u.params.linkDownPolicy = .flush := by rw [hp]; rfl
  show ((State.suspend (u.loseFrame .a) .a).flushDown .a).mgmt = _
  rw [lost, idle]
  unfold State.flushDown
  rw [if_pos policy, show portOf .a = Port.a from rfl, empty]
  dsimp only
  split
  · exact hm
  · rw [State.onTx_mgmt, hm]

/-- Refutes O53: under FLUSH a DOWN event vacates a transmitter whose suspended frame is the watched response, but the watch
ends only where an entry leaves a queue. Where the frame in flight is in no queue of its port, which the last clause does
not exclude, the reset stays pending. -/
theorem not_pendingResetIsPerformed : ¬ Obligations.PendingResetIsPerformed := by
  rintro ⟨-, -, -, -, -, -, down⟩
  obtain ⟨u, hu, wd⟩ := down orphanedWatch { cls := 0, frame := 0 } .full .a rfl rfl rfl rfl (by decide)
    orphanedWatch_roomy (by decide) (fun f hf => by cases hf) (.inl ⟨rfl, rfl⟩)
  have pending : u.mgmt.executor = .resetPending { scope := .full, watched := none } := congrArg Mgmt.executor wd.mgmt
  have left : exec (.silenceTimeout .a) orphanedWatch =
      .next (orphanedWatch.linkDown .a true (fun t => t.loseFrame .a)) := by
    rw [exec_silenceTimeout_up rfl rfl rfl]
    exact congrArg Host.Outcome.next
      (State.settle_watched (congrArg Mgmt.executor orphanedWatch_linkDown) rfl)
  have right : exec .resetLimitExpiry u = .next u.fullReset := by
    show execResetLimitExpiry u = _
    unfold execResetLimitExpiry
    rw [pending]
    rfl
  rw [left, right] at hu
  have same := congrArg (fun t => t.mgmt.executor) (Host.Outcome.next.inj hu)
  rw [orphanedWatch_linkDown] at same
  have idle : u.fullReset.mgmt.executor = .idle := rfl
  exact absurd (same.trans idle) (by decide)

end Sys2Proof.Machine

end

section
/-! An event raised beside a change of a trunk port that no placement sees: the two commute. -/

namespace Sys2Proof.Machine

variable {s t : State} {p : TrunkPort} {g : Trunk → Trunk}

/-! ### Changes of a port beside the store and the event queue -/

theorem State.append_onTrunk (s : State) (p : TrunkPort) (g : Trunk → Trunk) (k : EventKind) (q : Option Port) (d : Option Half) :
    (s.onTrunk p g).append k q d = (s.append k q d).onTrunk p g := by
  unfold State.append
  rw [State.onTrunk_events]
  split <;> cases p <;> rfl

theorem State.examineQuietly_onTrunk (s : State) (p : TrunkPort) (g : Trunk → Trunk) :
    (s.onTrunk p g).examineQuietly = s.examineQuietly.onTrunk p g := by
  have hw : ∀ w, (s.onTrunk p g).setWatermark w = (s.setWatermark w).onTrunk p g := fun w => by cases p <;> rfl
  unfold State.examineQuietly
  rw [State.onTrunk_store, hw, hw, State.append_onTrunk]
  split <;> split <;> rfl

theorem State.writeFrameByte_onTrunk (s : State) (p : TrunkPort) (g : Trunk → Trunk) (r i : Nat) (b : Byte) :
    (s.onTrunk p g).writeFrameByte r i b = (s.writeFrameByte r i b).onTrunk p g := by
  have hr : (s.onTrunk p g).record r = s.record r := by cases p <;> rfl
  unfold State.writeFrameByte
  rw [hr]
  split
  · split
    · cases p <;> rfl
    · rfl
  · rfl

theorem State.fill_onTrunk (p : TrunkPort) (g : Trunk → Trunk) (r : Nat) (l : List Byte) : ∀ (s : State) (i : Nat),
    (s.onTrunk p g).fill r i l = (s.fill r i l).onTrunk p g := by
  induction l with
  | nil => exact fun _ _ => rfl
  | cons b l ih =>
    intro s i
    unfold State.fill
    rw [State.writeFrameByte_onTrunk, ih]

theorem State.takeRoom_onTrunk (s : State) (p : TrunkPort) (g : Trunk → Trunk) (src : Source) (len : Nat) :
    (s.onTrunk p g).takeRoom src len = (s.takeRoom src len).map (fun x => (x.1, x.2.onTrunk p g)) := by
  have hq : (s.onTrunk p g).roomFor src (pagesNeeded len) = s.roomFor src (pagesNeeded len) := by
    cases p <;> cases src <;> rfl
  unfold State.takeRoom
  rw [hq, State.onTrunk_store]
  split
  · rfl
  · split
    · cases p <;> rfl
    · rfl

theorem State.releaseSkippedNotice_onTrunk (s : State) (p : TrunkPort) (g : Trunk → Trunk) (r : Nat) :
    (s.onTrunk p g).releaseSkippedNotice r = (s.releaseSkippedNotice r).onTrunk p g := by
  have hr : (s.onTrunk p g).record r = s.record r := by cases p <;> rfl
  have back : (s.onTrunk p g).returnRoom r = (s.returnRoom r).onTrunk p g := by cases p <;> rfl
  have told : ∀ u : State, (u.onTrunk p g).announce = u.announce.onTrunk p g := by
    intro u
    have hp : (u.onTrunk p g).resetPending = u.resetPending := by cases p <;> rfl
    unfold State.announce
    rw [hp, State.onTrunk_loc]
    split
    · split
      · rfl
      · cases p <;> rfl
    · rfl
  unfold State.releaseSkippedNotice
  rw [hr, back, State.examineQuietly_onTrunk, told]
  split <;> rfl

/-! ### Changes no placement sees -/

/-- A change of a port that keeps its queues and its link and goes with a placement and with a skip. -/
structure UnseenByPlacement (g : Trunk → Trunk) : Prop where
  queues : ∀ x, (g x).queues = x.queues
  link : ∀ x, (g x).link = x.link
  placed : ∀ x l, g { x with queues := l } = { g x with queues := l }
  skipped : ∀ x, g { x with stats := x.stats.on satInc .queueFullSkips } =
    { g x with stats := (g x).stats.on satInc .queueFullSkips }

theorem State.queues_unseen (h : UnseenByPlacement g) (s : State) (p : TrunkPort) (q : Port) :
    (s.onTrunk p g).queues q = s.queues q := by
  cases p <;> cases q
  case a.a | b.b => exact h.queues _
  all_goals rfl

theorem State.place_onTrunk (h : UnseenByPlacement g) (s : State) (p : TrunkPort) (q : Port) (c : TrafficClass) (r : Nat) :
    (s.onTrunk p g).place q c r = (s.place q c r).onTrunk p g := by
  have can : (s.onTrunk p g).canPlace q c = s.canPlace q c := by
    have flush : (s.onTrunk p g).flushing q = s.flushing q := by
      cases p <;> cases q
      case a.a | b.b => exact congrArg (fun l : Link => _ && !l.up) (h.link _)
      all_goals rfl
    have deep : (s.onTrunk p g).depth q = s.depth q := by cases p <;> cases q <;> rfl
    unfold State.canPlace
    rw [State.queues_unseen h, flush, deep]
  have skip : (s.onTrunk p g).raiseSkip q = (s.raiseSkip q).onTrunk p g := by
    cases p <;> cases q
    case a.a => exact congrArg (fun x => ({ s with trunkA := x } : State)) (h.skipped s.trunkA).symm
    case b.b => exact congrArg (fun x => ({ s with trunkB := x } : State)) (h.skipped s.trunkB).symm
    all_goals rfl
  have put : ∀ l, (s.onTrunk p g).setQueues q l = (s.setQueues q l).onTrunk p g := by
    intro l
    cases p <;> cases q
    case a.a => exact congrArg (fun x => ({ s with trunkA := x } : State)) (h.placed s.trunkA l).symm
    case b.b => exact congrArg (fun x => ({ s with trunkB := x } : State)) (h.placed s.trunkB l).symm
    all_goals rfl
  have keep : ∀ (u : State) (f : FrameRecord), (u.onTrunk p g).setRecord r f = (u.setRecord r f).onTrunk p g := by
    intro u f; cases p <;> rfl
  have held : ∀ u : State, (u.onTrunk p g).record r = u.record r := fun u => by cases p <;> rfl
  unfold State.place
  rw [can, skip]
  split
  · unfold State.enqueue
    dsimp only
    rw [State.queues_unseen h, put, held, keep]
  · rfl

theorem State.sendNotice_onTrunk (h : UnseenByPlacement g) (s : State) (p : TrunkPort) (e : EventRecord) :
    (s.onTrunk p g).sendNotice e = (s.sendNotice e).onTrunk p g := by
  have bytes : (s.onTrunk p g).noticeBytes e = s.noticeBytes e := by cases p <;> rfl
  have byDest : ∀ (u : State) (d : Station) (r : Nat), (u.onTrunk p g).placeByDest d r = (u.placeByDest d r).onTrunk p g := by
    intro u d r
    have route : (u.onTrunk p g).routeByDest d = u.routeByDest d := by
      unfold State.routeByDest
      rw [State.onTrunk_numbering]
    unfold State.placeByDest
    rw [route]
    split
    · exact State.place_onTrunk h u p _ 0 r
    · rfl
  have flag : ∀ u : State, (u.onTrunk p g).setNotice = u.setNotice.onTrunk p g := fun u => by cases p <;> rfl
  unfold State.sendNotice
  rw [State.takeRoom_onTrunk, bytes, State.onTrunk_params]
  cases s.takeRoom .i 10 with
  | none => rfl
  | some x =>
    dsimp only [Option.map]
    rw [State.examineQuietly_onTrunk, State.fill_onTrunk, byDest, State.releaseSkippedNotice_onTrunk, flag]

/-- An event and a change of a port that no placement sees commute. -/
theorem State.raiseEvent_onTrunk (h : UnseenByPlacement g) (s : State) (p : TrunkPort) (k : EventKind) (q : Option Port)
    (d : Option Half) : (s.onTrunk p g).raiseEvent k q d = (s.raiseEvent k q d).onTrunk p g := by
  have due : ∀ u : State, (u.onTrunk p g).noticeDue = u.noticeDue := fun u => by cases p <;> rfl
  have new : (s.onTrunk p g).newRecord k q d = s.newRecord k q d := by cases p <;> rfl
  unfold State.raiseEvent
  dsimp only
  rw [State.append_onTrunk, due, State.onTrunk_events, new, State.sendNotice_onTrunk h]
  split <;> rfl

/-- A receiver's change is one no placement sees. -/
theorem unseenByPlacement_rx (f : Receiver → Receiver) : UnseenByPlacement (fun x => { x with rx := f x.rx }) where
  queues _ := rfl
  link _ := rfl
  placed _ _ := rfl
  skipped _ := rfl

/-- A transmitter's change with a statistic other than the skips is one no placement sees. -/
theorem unseenByPlacement_tx (f : Transmitter → Transmitter) (k : TrunkStat) (hk : k ≠ .queueFullSkips) :
    UnseenByPlacement (fun x => { x with tx := f x.tx, stats := x.stats.on satInc k }) where
  queues _ := rfl
  link _ := rfl
  placed _ _ := rfl
  skipped x := by
    cases k
    case queueFullSkips => exact absurd rfl hk
    all_goals rfl

end Sys2Proof.Machine

end

section
/-! The 64th good symbol (R94, R95): the order in which the receiver and the UP event act makes no difference where no frame
is resumed and the symbol raises no event. -/

namespace Sys2Proof.Machine

variable {s t u : State} {p : TrunkPort}

/-! ### The UP event with no frame to resume -/

/-- A port whose UP event resumes nothing: no frame in flight, or HELD. -/
def State.restful (s : State) (p : TrunkPort) : Prop := (s.tx p).inFlight = none ∨ (s.tx p).state = .held

theorem State.resume_restful (h : s.restful p) : s.resume p = s := by
  unfold State.resume
  rcases h with h | h
  · split
    · unfold State.retransmit
      rw [h]
    · rfl
  · exact if_neg (by simp [h])

theorem State.linkUp_restful (h : s.restful p) : s.linkUp p =
    ((s.onLink p (fun l => { l with up := true })).chosen).raiseEvent .linkUp (some (portOf p)) none := by
  generalize hv : (s.onLink p (fun l => { l with up := true })).chosen = v
  have tx : v.tx p = s.tx p := by rw [← hv]; cases p <;> rfl
  have rest : v.restful p := by unfold State.restful; rw [tx]; exact h
  have after : (v.raiseEvent .linkUp (some (portOf p)) none).restful p := by
    unfold State.restful
    rw [State.tx_eq, (v.calm_raiseEvent _ _ _).tx]
    exact rest
  unfold State.linkUp
  dsimp only
  rw [hv, State.resume_restful after, State.resume_restful rest]
  split <;> rfl

/-- The 64th symbol of a run: the receiver and the UP event in either order. -/
theorem State.hear_completes (he : s.enabled p = true) (hu : (s.trunk p).link.up = false)
    (hr : (s.trunk p).link.run + 1 = 64) (f : State → State) : s.hear p f =
      if Config.firstOrder s.choices then f ((s.onLink p Link.heard).chosen.linkUp p)
      else (f (s.onLink p Link.heard).chosen).linkUp p := by
  have complete : ((s.onLink p Link.heard).trunk p).link.runComplete = true := by
    have hl : ((s.onLink p Link.heard).trunk p).link = (s.trunk p).link.heard := by cases p <;> rfl
    rw [hl]
    simp [Link.runComplete, Link.heard, hu, hr, runLength]
  unfold State.hear
  rw [if_pos he]
  dsimp only
  rw [if_pos complete]

/-! ### Operations that go with a change of the link, the event queue and the free choices -/

/-- Another link of a port, another event queue and another number of choices. -/
def State.aside (s : State) (p : TrunkPort) (l : Link) (ev : EventQueue) (n : Nat) : State :=
  { s.onLink p (fun _ => l) with events := ev, choices := n }

/-- An operation that neither sees nor touches the link of a port, the event queue and the free choices. -/
def Deaf (p : TrunkPort) (f : State → State) : Prop :=
  ∀ u, (f u).events = u.events ∧ ∀ l ev n, f (u.aside p l ev n) = (f u).aside p l ev n

/-- An operation that, where it leaves an event queue `E` as it is, does the same with the event queue `ev`. -/
def Blind (p : TrunkPort) (E ev : EventQueue) (f : State → State) : Prop :=
  ∀ u, u.events = E → (f u).events = E → ∀ l n, f (u.aside p l ev n) = (f u).aside p l ev n

variable {E ev : EventQueue} {f g : State → State}

theorem Deaf.comp (hg : Deaf p g) (hf : Deaf p f) : Deaf p (fun u => g (f u)) := fun u =>
  ⟨(hg (f u)).1.trans (hf u).1, fun l ev n => by beta_reduce; rw [(hf u).2, (hg (f u)).2]⟩

theorem Deaf.id (p : TrunkPort) : Deaf p (fun u => u) := fun _ => ⟨rfl, fun _ _ _ => rfl⟩

theorem Deaf.blind (h : Deaf p f) : Blind p E ev f := fun u _ _ l n => (h u).2 l ev n

theorem Blind.after (hg : Blind p E ev g) (hf : Deaf p f) : Blind p E ev (fun u => g (f u)) := fun u hu he l n => by
  beta_reduce
  rw [(hf u).2, hg (f u) ((hf u).1.trans hu) he]

theorem Deaf.after (hg : Deaf p g) (hf : Blind p E ev f) : Blind p E ev (fun u => g (f u)) := fun u hu he l n => by
  beta_reduce
  rw [hf u hu ((hg (f u)).1.symm.trans he), (hg (f u)).2]

/-- A queue that an event leaves as it is: full, with the lost count at its maximum. -/
def EventQueue.stuck (E : EventQueue) : Prop := 32 ≤ E.records.length ∧ satInc E.lost = E.lost

theorem State.append_stuck (h : s.events.stuck) (k : EventKind) (q : Option Port) (d : Option Half) : s.append k q d = s := by
  unfold State.append
  rw [if_neg (by have := h.1; omega), h.2]

theorem State.stuck_of_append {k : EventKind} {q : Option Port} {d : Option Half}
    (h : (s.append k q d).events = s.events) : s.events.stuck := by
  unfold State.append at h
  split at h
  · exact absurd (congrArg (fun E : EventQueue => E.records.length) h) (by simp)
  · next hl => exact ⟨by omega, congrArg EventQueue.lost h⟩

/-- How far a queue has come: its records and the events lost. -/
def EventQueue.count (E : EventQueue) : Nat := E.records.length + E.lost.toNat

theorem satInc_cases (x : Half) : satInc x = x ∨ (satInc x).toNat = x.toNat + 1 := by
  unfold satInc
  split
  · right; bv_omega
  · exact .inl rfl

theorem State.append_grows (s : State) (k : EventKind) (q : Option Port) (d : Option Half) :
    (s.append k q d).events = s.events ∨ s.events.count < (s.append k q d).events.count := by
  unfold State.append EventQueue.count
  split
  · right; simp
  · rcases satInc_cases s.events.lost with h | h
    · rw [h]; exact .inl rfl
    · right
      dsimp only
      omega

theorem State.aside_events (s : State) (p : TrunkPort) (l : Link) (ev : EventQueue) (n : Nat) :
    (s.aside p l ev n).events = ev := rfl

theorem deaf_raiseTrunk (p : TrunkPort) (k : TrunkStat) : Deaf p (fun u => u.raiseTrunk p k) := fun u =>
  ⟨u.raiseTrunk_events p k, fun _ _ _ => by cases p <;> rfl⟩

theorem deaf_setReception (p : TrunkPort) (x : Reception) : Deaf p (fun u => u.setReception p x) := fun u =>
  ⟨u.setReception_events p x, fun _ _ _ => by cases p <;> rfl⟩

theorem deaf_onTx (p : TrunkPort) (f : Transmitter → Transmitter) : Deaf p (fun u => u.onTx p f) := fun u =>
  ⟨u.onTx_events p f, fun _ _ _ => by cases p <;> rfl⟩

theorem deaf_writeFrameByte (p : TrunkPort) (r i : Nat) (b : Byte) : Deaf p (fun u => u.writeFrameByte r i b) := by
  refine fun u => ⟨u.writeFrameByte_events r i b, fun l ev n => ?_⟩
  have hr : (u.aside p l ev n).record r = u.record r := by cases p <;> rfl
  unfold State.writeFrameByte
  beta_reduce
  rw [hr]
  split
  · split
    · cases p <;> rfl
    · rfl
  · rfl

theorem deaf_fill (p : TrunkPort) (r : Nat) (l : List Byte) : ∀ i, Deaf p (fun u => u.fill r i l) := by
  induction l with
  | nil => exact fun _ => Deaf.id p
  | cons b l ih => exact fun i => (ih (i + 1)).comp (deaf_writeFrameByte p r i b)

section
variable (hE : E.records ≠ []) (hev : ev.records ≠ []) (stuck : E.stuck → ev.stuck)
include hE hev stuck

/-- An event raised. -/
theorem blind_raiseEvent (k : EventKind) (q : Option Port) (d : Option Half) :
    Blind p E ev (fun u => u.raiseEvent k q d) := by
  intro u hu he l n
  dsimp only at he ⊢
  rw [u.raiseEvent_behind k q d (by rw [hu]; exact hE)] at he ⊢
  have full : E.stuck := hu ▸ State.stuck_of_append (he.trans hu.symm)
  have full' : (u.aside p l ev n).events.stuck := stuck full
  rw [State.raiseEvent_behind k q d hev, State.append_stuck full', State.append_stuck (by rw [hu]; exact full)]

/-- Two events raised. -/
theorem blind_raiseEvent_twice (k k' : EventKind) (q q' : Option Port) (d d' : Option Half) :
    Blind p E ev (fun u => (u.raiseEvent k q d).raiseEvent k' q' d') := by
  intro u hu he l n
  dsimp only at he ⊢
  have first : (u.raiseEvent k q d).events = E := by
    have h1 := u.append_grows k q d
    have h2 := (u.append k q d).append_grows k' q' d'
    rw [u.raiseEvent_behind k q d (by rw [hu]; exact hE)] at he ⊢
    rw [State.raiseEvent_behind k' q' d' ((u.eventsKept_append k q d).held (by rw [hu]; exact hE))] at he
    rw [he] at h2
    rw [hu] at h1
    rcases h1 with h1 | h1
    · exact h1
    · rcases h2 with h2 | h2
      · exact h2.symm
      · omega
  have one := blind_raiseEvent (p := p) hE hev stuck k q d u hu first l n
  have two := blind_raiseEvent (p := p) hE hev stuck k' q' d' _ first he l n
  beta_reduce at one two
  rw [one, two]

theorem blind_examine : Blind p E ev State.examine := by
  have marked : ∀ w, Deaf p (fun u => u.setWatermark w) := fun w u => ⟨rfl, fun _ _ _ => by cases p <;> rfl⟩
  intro u hu he l n
  have hst : (u.aside p l ev n).store = u.store := by cases p <;> rfl
  unfold State.examine at he ⊢
  rw [hst]
  split
  · next hw =>
    rw [hw] at he
    split
    · next hl =>
      dsimp only at he
      rw [if_pos hl] at he
      exact (blind_raiseEvent hE hev stuck _ _ _).after (marked .low) u hu he l n
    · rfl
  · split
    · exact (marked .armed u).2 l ev n
    · rfl

theorem blind_release (r : Nat) : Blind p E ev (fun u => u.release r) := by
  have back : Deaf p (fun u => u.returnRoom r) := fun u => ⟨rfl, fun _ _ _ => by cases p <;> rfl⟩
  have told : Deaf p State.announce := by
    intro u
    refine ⟨u.announce_events, fun l ev n => ?_⟩
    have hp : (u.aside p l ev n).resetPending = u.resetPending := by cases p <;> rfl
    have hl : (u.aside p l ev n).loc = u.loc := by cases p <;> rfl
    unfold State.announce
    rw [hp, hl]
    split
    · split
      · rfl
      · cases p <;> rfl
    · rfl
  exact told.after ((blind_examine hE hev stuck).after back)

theorem blind_abandon (r : Option Nat) : Blind p E ev (fun u => u.abandon r) := by
  cases r with
  | none => exact (Deaf.id p).blind
  | some r => exact blind_release hE hev stuck r

theorem blind_checkFailed (f : RxFrame) : Blind p E ev (fun u => u.checkFailed p f) := by
  have start : Deaf p (fun u => (u.setReception p .waitSof).answer p (.nak f.seq .check)) := fun u =>
    ⟨by simp, fun _ _ _ => by cases p <;> rfl⟩
  exact (deaf_raiseTrunk p .checkFailures).after ((blind_abandon hE hev stuck f.frame).after start)

end

end Sys2Proof.Machine

end

section
/-! The symbols of a trunk port as the 64th of a run (R45, R95). -/

namespace Sys2Proof.Machine

variable {s t u : State} {p : TrunkPort} {E ev : EventQueue}

theorem State.aside_rx (s : State) (p : TrunkPort) (l : Link) (ev : EventQueue) (n : Nat) :
    ((s.aside p l ev n).trunk p).rx = (s.trunk p).rx := by cases p <;> rfl

theorem State.aside_tx (s : State) (p : TrunkPort) (l : Link) (ev : EventQueue) (n : Nat) :
    (s.aside p l ev n).tx p = s.tx p := by cases p <;> rfl

section
variable (hE : E.records ≠ []) (hev : ev.records ≠ []) (stuck : E.stuck → ev.stuck)
include hE hev stuck

theorem blind_takeSof : Blind p E ev (fun u => u.takeSof p) := by
  intro u hu he l n
  have start := deaf_setReception p (.header .start)
  dsimp only at he ⊢
  unfold State.takeSof at he ⊢
  rw [State.aside_rx]
  cases hx : (u.trunk p).rx.reception with
  | waitSof => exact (start u).2 l ev n
  | header f => exact (start.comp ((deaf_raiseTrunk p .headerErrors).comp (deaf_setReception p .waitSof)) u).2 l ev n
  | payload f | check f =>
    rw [hx] at he
    exact start.after (blind_checkFailed hE hev stuck f) u hu he l n

theorem blind_judgeHeader (f : RxFrame) : Blind p E ev (fun u => u.judgeHeader p f) := by
  intro u hu he l n
  have pending : (u.aside p l ev n).resetPending = u.resetPending := by cases p <;> rfl
  have room : ∀ src len, (u.aside p l ev n).takeRoom src len =
      (u.takeRoom src len).map (fun x => (x.1, x.2.aside p l ev n)) := by
    intro src len
    have hr : (u.aside p l ev n).roomFor src (pagesNeeded len) = u.roomFor src (pagesNeeded len) := by
      cases p <;> cases src <;> rfl
    have hst : (u.aside p l ev n).store = u.store := by cases p <;> rfl
    unfold State.takeRoom
    rw [hr, hst]
    split
    · rfl
    · split
      · cases p <;> rfl
      · rfl
  dsimp only at he ⊢
  unfold State.judgeHeader State.askRoom at he ⊢
  dsimp only at he ⊢
  rw [pending, room]
  split
  · exact ((deaf_raiseTrunk p .headerErrors).comp (deaf_setReception p .waitSof) u).2 l ev n
  · next hb =>
    rw [if_neg hb] at he
    split
    · exact (deaf_setReception p _ u).2 l ev n
    · next hp =>
      rw [if_neg hp] at he
      cases ht : u.takeRoom (trunkSource p) (parseHeader f.header).length.toNat with
      | none => exact (deaf_setReception p _ u).2 l ev n
      | some x =>
        rw [ht] at he
        exact ((deaf_setReception p _).comp (deaf_fill p x.1 f.header 0)).after (blind_examine hE hev stuck) x.2
          ((u.takeRoom_events ht).trans hu) he l n

theorem blind_takeData (b : Byte) : Blind p E ev (fun u => u.takeData p b) := by
  intro u hu he l n
  dsimp only at he ⊢
  unfold State.takeData at he ⊢
  rw [State.aside_rx]
  cases hx : (u.trunk p).rx.reception with
  | waitSof => rfl
  | header f =>
    rw [hx] at he
    dsimp only at he ⊢
    split
    · exact (deaf_setReception p _ u).2 l ev n
    · next hl =>
      rw [if_neg hl] at he
      exact blind_judgeHeader hE hev stuck _ u hu he l n
  | payload f =>
    have body : Deaf p (fun u => u.writeBody f.frame (10 + f.after) b) := by
      cases f.frame with
      | none => exact .id p
      | some r => exact deaf_writeFrameByte p r _ b
    exact ((deaf_setReception p _).comp body u).2 l ev n
  | check f =>
    rw [hx] at he
    dsimp only at he ⊢
    split
    · exact (deaf_setReception p _ u).2 l ev n
    · next hl =>
      rw [if_neg hl] at he
      exact blind_checkFailed hE hev stuck f u hu he l n

theorem blind_dispose (f : RxFrame) : Blind p E ev (fun u => u.dispose p f) := by
  intro u hu he l n
  have ended : ∀ a, Deaf p (fun u => (u.setReception p .waitSof).answer p a) := fun a u =>
    ⟨by simp, fun _ _ _ => by cases p <;> rfl⟩
  have refused : Deaf p (fun u => ((u.setReception p .waitSof).answer p (.nak f.seq .busy)).raiseTrunk p .busyRefusals) :=
    (deaf_raiseTrunk p .busyRefusals).comp (ended _)
  dsimp only at he ⊢
  unfold State.dispose at he ⊢
  rw [State.aside_rx]
  split
  · next hb =>
    rw [if_pos hb] at he
    exact blind_checkFailed hE hev stuck f u hu he l n
  · next hb =>
    rw [if_neg hb] at he
    split
    · next hs =>
      rw [if_pos hs] at he
      exact (deaf_raiseTrunk p .duplicates).after ((blind_abandon hE hev stuck f.frame).after (ended _)) u hu he l n
    · cases f.refused with
      | true => exact (refused u).2 l ev n
      | false =>
        cases f.frame with
        | none => exact (refused u).2 l ev n
        | some r => cases p <;> rfl

theorem blind_takeEof : Blind p E ev (fun u => u.takeEof p) := by
  intro u hu he l n
  dsimp only at he ⊢
  unfold State.takeEof at he ⊢
  rw [State.aside_rx]
  cases hx : (u.trunk p).rx.reception with
  | waitSof => rfl
  | header f => exact ((deaf_raiseTrunk p .headerErrors).comp (deaf_setReception p .waitSof) u).2 l ev n
  | payload f =>
    rw [hx] at he
    exact blind_checkFailed hE hev stuck f u hu he l n
  | check f =>
    rw [hx] at he
    dsimp only at he ⊢
    split
    · next hl =>
      rw [if_pos hl] at he
      exact blind_checkFailed hE hev stuck f u hu he l n
    · next hl =>
      rw [if_neg hl] at he
      exact blind_dispose hE hev stuck f u hu he l n

end

/-! ### Answers with no frame to complete -/

theorem State.leaveFlight_none (h : (s.tx p).inFlight = none) : s.leaveFlight p = s.onTx p Transmitter.cleared := by
  unfold State.leaveFlight
  rw [h]

/-- What a symbol does at a port that an UP event resumes nothing at: an operation that goes with another link, event queue
and number of choices, and keeps the port so and the management engine. -/
structure State.TakesAside (u : State) (p : TrunkPort) (E ev : EventQueue) (f : State → State) : Prop where
  aside : u.events = E → (f u).events = E → ∀ l n, f (u.aside p l ev n) = (f u).aside p l ev n
  restful : (f u).restful p
  mgmt : (f u).mgmt = u.mgmt

/-- An operation that acts as one that goes with them. -/
theorem Blind.takesAside {f g : State → State} (hg : Blind p E ev g)
    (h : ∀ v, v.tx p = u.tx p → v.params = u.params → f v = g v) (hr : (g u).restful p) (hm : (g u).mgmt = u.mgmt) :
    u.TakesAside p E ev f where
  aside hu he l n := by
    have hv := h (u.aside p l ev n) (u.aside_tx p l ev n) (by cases p <;> rfl)
    rw [hv, h u rfl rfl]
    rw [h u rfl rfl] at he
    exact hg u hu he l n
  restful := by rw [h u rfl rfl]; exact hr
  mgmt := by rw [h u rfl rfl]; exact hm

theorem State.restful_of_tx (h : t.tx p = s.tx p) (hr : s.restful p) : t.restful p := by
  unfold State.restful
  rw [h]
  exact hr

theorem State.restful_onTx {f : Transmitter → Transmitter} (h : (f (s.tx p)).inFlight = none) : (s.onTx p f).restful p := by
  refine .inl ?_
  cases p <;> exact h

theorem State.takesAside_stray (h : u.restful p) {f : State → State}
    (hf : ∀ v, v.tx p = u.tx p → v.params = u.params → f v = v.stray p) : u.TakesAside p E ev f :=
  (deaf_raiseTrunk p .strayAcks).blind.takesAside hf (State.restful_of_tx (s := u) (by cases p <;> rfl) h)
    (u.raiseTrunk_mgmt p .strayAcks)

theorem State.takesAside_onTx {f : State → State} {x : Transmitter → Transmitter} (hx : (x (u.tx p)).inFlight = none)
    (hf : ∀ v, v.tx p = u.tx p → v.params = u.params → f v = v.onTx p x) : u.TakesAside p E ev f :=
  (deaf_onTx p x).blind.takesAside hf (State.restful_onTx hx) (u.onTx_mgmt p x)

theorem State.takesAside_takeAck (h : u.restful p) (q : LinkSeq) : u.TakesAside p E ev (fun v => v.takeAck p q) := by
  by_cases hq : q = (u.tx p).txSeq
  · have open_ : ∀ v : State, v.tx p = u.tx p → v.takeAck p q =
        match (u.tx p).state with
        | .idle => if (u.tx p).inFlight.isSome then v.leaveFlight p else v.stray p
        | .sending => if (u.tx p).acked then v.stray p else v.onTx p (fun t => { t with acked := true })
        | .awaitingAck => v.leaveFlight p
        | .retryWait => v.leaveFlight p
        | .held => v.stray p := fun v hv => by
      unfold State.takeAck
      rw [hv]
      exact if_pos hq
    cases hx : (u.tx p).state with
    | held => exact State.takesAside_stray h fun v hv _ => by rw [open_ v hv, hx]
    | idle =>
      have hn : (u.tx p).inFlight = none := h.resolve_right (by simp [hx])
      exact State.takesAside_stray h fun v hv _ => by rw [open_ v hv, hx, hn]; rfl
    | sending =>
      have hn : (u.tx p).inFlight = none := h.resolve_right (by simp [hx])
      cases ha : (u.tx p).acked with
      | true => exact State.takesAside_stray h fun v hv _ => by rw [open_ v hv, hx, ha]; rfl
      | false =>
        refine State.takesAside_onTx (x := fun t => { t with acked := true }) hn fun v hv _ => ?_
        rw [open_ v hv, hx, ha]
        rfl
    | awaitingAck | retryWait =>
      have hn : (u.tx p).inFlight = none := h.resolve_right (by simp [hx])
      exact State.takesAside_onTx (x := Transmitter.cleared) rfl fun v hv _ => by
        rw [open_ v hv, hx, ← State.leaveFlight_none (by rw [hv]; exact hn)]
  · exact State.takesAside_stray h fun v hv _ => by
      unfold State.takeAck
      rw [hv]
      exact if_neg hq

section
variable (hE : E.records ≠ []) (hev : ev.records ≠ []) (stuck : E.stuck → ev.stuck)
include hE hev stuck

/-- A failed attempt of a port with no frame in flight. -/
theorem State.takesAside_failAttempt (hn : (u.tx p).inFlight = none) : u.TakesAside p E ev (fun v => v.failAttempt p) := by
  have limit : ∀ v : State, v.params = u.params → v.retryLimit p = u.retryLimit p := fun v hv =>
    State.retryLimit_of_params hv p
  have policy : ∀ v : State, v.params = u.params → v.retryPolicy p = u.retryPolicy p := fun v hv =>
    State.retryPolicy_of_params hv p
  have spent : Deaf p (fun v : State => v.spent p) := fun v => ⟨v.setTrunk_events p _, fun _ _ _ => by cases p <;> rfl⟩
  have hsn : ∀ v : State, v.tx p = u.tx p → ((v.spent p).tx p).inFlight = none := fun v hv => by
    rw [← hn, ← hv]; cases p <;> rfl
  by_cases hl : (u.tx p).attempts + 1 < u.retryLimit p
  · exact State.takesAside_onTx (x := fun t => { t with
        state := .retryWait, attempts := (u.tx p).attempts + 1
        timer := some (u.params.retryStep * ((u.tx p).attempts + 1)) }) hn fun v hv hp => by
      rw [State.failAttempt_waits (by rw [hv, limit v hp]; exact hl), hv, hp, ← hv]
      cases p <;> rfl
  · have exhausts : ∀ v : State, v.tx p = u.tx p → v.params = u.params → v.retryLimit p ≤ (v.tx p).attempts + 1 :=
      fun v hv hp => by rw [hv, limit v hp]; omega
    cases hp : u.retryPolicy p with
    | again =>
      have D : Deaf p (fun v : State => (v.spent p).onTx p (fun t => { t with
          state := .retryWait, attempts := 0, timer := some u.params.retryStep })) := (deaf_onTx p _).comp spent
      refine D.blind.takesAside (fun v hv hpar => ?_) (State.restful_onTx (hsn u rfl)) (by simp [State.spent])
      rw [State.failAttempt_again (exhausts v hv hpar) ((policy v hpar).trans hp), hpar]
      cases p <;> rfl
    | drop =>
      have D := (blind_raiseEvent hE hev stuck .retryExhausted (some (portOf p)) (some 2)).after
        ((deaf_onTx p Transmitter.cleared).comp spent)
      refine D.takesAside (fun v hv hpar => ?_) ?_ (by simp [State.spent, State.raiseEvent_mgmt])
      · rw [State.failAttempt_drop (exhausts v hv hpar) ((policy v hpar).trans hp), State.leaveFlight_none (hsn v hv)]
      · exact State.restful_of_tx (State.calm_raiseEvent _ _ _ _ |>.tx p) (State.restful_onTx rfl)
    | hold =>
      have D := (blind_raiseEvent_twice hE hev stuck .retryExhausted .portHeld (some (portOf p)) (some (portOf p))
        (some 3) none).after ((deaf_onTx p (fun t => { t with state := .held, timer := none })).comp spent)
      refine D.takesAside (fun v hv hpar => ?_) ?_ (by simp [State.spent, State.raiseEvent_mgmt])
      · rw [State.failAttempt_hold (exhausts v hv hpar) ((policy v hpar).trans hp)]
      · exact State.restful_of_tx (State.calm_raiseEvent _ _ _ _ |>.tx p)
          (State.restful_of_tx (State.calm_raiseEvent _ _ _ _ |>.tx p) (State.restful_onTx (hsn u rfl)))

theorem State.takesAside_takeNak (h : u.restful p) (q : LinkSeq) (why : NakReason) :
    u.TakesAside p E ev (fun v => v.takeNak p q why) := by
  by_cases hq : q = (u.tx p).txSeq ∧ (u.tx p).state = .awaitingAck
  · have hn : (u.tx p).inFlight = none := h.resolve_right (by simp [hq.2])
    have open_ : ∀ v : State, v.tx p = u.tx p → v.takeNak p q why =
        match why with
        | .check => v.failAttempt p
        | .busy => v.onTx p (fun t => { t with state := .retryWait, timer := some v.params.busyWait }) := fun v hv => by
      unfold State.takeNak
      rw [hv]
      exact if_pos hq
    cases why with
    | busy =>
      exact State.takesAside_onTx (x := fun t => { t with state := .retryWait, timer := some u.params.busyWait }) hn
        fun v hv hp => by rw [open_ v hv, hp]
    | check =>
      have k := State.takesAside_failAttempt hE hev stuck hn
      refine ⟨fun hu he l n => ?_, ?_, ?_⟩
      · have h1 := open_ (u.aside p l ev n) (u.aside_tx p l ev n)
        dsimp only at he h1 ⊢
        rw [h1, open_ u rfl]
        rw [open_ u rfl] at he
        exact k.aside hu he l n
      · exact (congrArg (State.restful · p) (open_ u rfl)).mpr k.restful
      · exact (congrArg State.mgmt (open_ u rfl)).trans k.mgmt
  · exact State.takesAside_stray h fun v hv _ => by
      unfold State.takeNak
      rw [hv]
      exact if_neg hq

end

end Sys2Proof.Machine

end

section
/-! RunOfSymbolsTakesLinkUp and LinkUpResumesFrame: the UP event in either order with the receiver and the transmitter. -/

namespace Sys2Proof.Machine

variable {s t u : State} {p : TrunkPort}

/-- The link of a port that its run has taken UP. -/
def Link.risen : Link := { up := true, run := 64, silence := true }

/-- What the receiver does with a symbol that leaves the transmitter and the management engine alone. -/
theorem Work.takesAside {F : List Part} {E ev : EventQueue} {f : State → State} (hb : Blind p E ev f)
    (hw : Work F u (f u)) (ht : Part.tx p ∉ F) (hm : (f u).mgmt = u.mgmt) (h : u.restful p) : u.TakesAside p E ev f :=
  ⟨fun hu he l n => hb u hu he l n, State.restful_of_tx (hw.same (.tx p) ht) h, hm⟩

theorem State.append_aside (hE : s.events = u.events) (hn : s.nodeTime = u.nodeTime) (hp : s.params = u.params)
    (l : Link) (n : Nat) : State.append (s.aside p l s.events n) .linkUp (some (portOf p)) none =
      s.aside p l (u.append .linkUp (some (portOf p)) none).events n := by
  have k := State.append_events_congr (t := s.aside p l s.events n) (s := u) hE (by cases p <;> exact hn)
    (by cases p <;> exact hp) .linkUp (some (portOf p)) none
  rw [State.append_eq, k]
  cases p <;> rfl

/-- The 64th symbol of a run at a port with no frame to resume: the effect of the symbol heard earlier in the run, with the
link UP and LINK_UP behind it. -/
theorem State.hear_completes_as {f : State → State} (he : s.enabled p = true) (hu : (s.trunk p).link.up = false)
    (hr : (s.trunk p).link.run + 1 = 64) (hq : s.restful p) (hd : s.resetDue = false) (hev : s.events.records ≠ [])
    (hf : ∀ u : State, u.restful p → ∀ ev : EventQueue, ev.records ≠ [] → (s.events.stuck → ev.stuck) →
        u.TakesAside p s.events ev f)
    (hk : ∀ u : State, (f u).nodeTime = u.nodeTime ∧ (f u).params = u.params)
    (ht : (State.hear (State.setTrunk { s with choices := s.choices + 2 } p { s.trunk p with
      link := { (s.trunk p).link with run := 0 } }) p f).settle = t) (hte : t.events = s.events) :
    (s.hear p f).settle = (t.setTrunk p { t.trunk p with link := .risen }).raiseEvent .linkUp (some (portOf p)) none := by
  generalize hw : (State.setTrunk { s with choices := s.choices + 2 } p { s.trunk p with
    link := { (s.trunk p).link with run := 0 } }) = w at ht
  generalize hb : w.heardAt p = b
  have plain : w.hearsPlainly p := by
    refine ⟨by rw [← hw]; cases p <;> exact he, .inr ?_⟩
    rw [← hw, State.trunk_setTrunk_same]
    exact (by decide : 0 + 1 < 64)
  have bmgmt : b.mgmt = s.mgmt := by rw [← hb, ← hw]; cases p <;> rfl
  have bevents : b.events = s.events := by rw [← hb, ← hw]; cases p <;> rfl
  have brest : b.restful p := State.restful_of_tx (s := s) (by rw [← hb, ← hw]; cases p <;> rfl) hq
  have keeps := fun ev h1 h2 => hf b brest ev h1 h2
  have same := keeps s.events hev id
  have tb : t = f b := by
    rw [← ht, State.hear_plainly plain]
    rw [show f (w.setTrunk p { w.trunk p with link := (w.trunk p).link.heard }) = f b from congrArg f hb]
    exact s.settle_of_mgmt (same.mgmt.trans bmgmt) hd
  subst tb
  have quiet := same.aside bevents hte
  have choices : (f b).choices = s.choices + 2 := by
    have hself : b.aside p (b.trunk p).link s.events b.choices = b := by
      rw [← bevents]; cases p <;> rfl
    have k := congrArg State.choices (quiet (b.trunk p).link b.choices)
    rw [hself] at k
    rw [k, ← hb, ← hw]
    cases p <;> rfl
  generalize hup : (s.append .linkUp (some (portOf p)) none).events = up
  have upne : up.records ≠ [] := hup ▸ (s.eventsKept_append _ _ _).held hev
  have upstuck : s.events.stuck → up.stuck := fun h => by
    rw [← hup, State.append_stuck h]
    exact h
  have behind : ∀ (v : State) (l : Link) (n : Nat), v.events = s.events → v.nodeTime = s.nodeTime → v.params = s.params →
      (v.aside p l s.events n).raiseEvent .linkUp (some (portOf p)) none = v.aside p l up n := by
    intro v l n h1 h2 h3
    rw [State.raiseEvent_behind _ _ _ (by rw [State.aside_events]; exact hev), ← h1, State.append_aside h1 h2 h3, hup]
  have btime : b.nodeTime = s.nodeTime ∧ b.params = s.params := by
    rw [← hb, ← hw]; cases p <;> exact ⟨rfl, rfl⟩
  have ftime : (f b).nodeTime = s.nodeTime ∧ (f b).params = s.params :=
    ⟨(hk b).1.trans btime.1, (hk b).2.trans btime.2⟩
  have target : ((f b).setTrunk p { (f b).trunk p with link := .risen }).raiseEvent .linkUp (some (portOf p)) none =
      (f b).aside p .risen up (s.choices + 2) := by
    rw [← behind (f b) .risen (s.choices + 2) hte ftime.1 ftime.2, ← hte, ← choices]
    cases p <;> rfl
  have heard : (s.onLink p Link.heard).chosen = b.aside p (s.trunk p).link.heard s.events (s.choices + 1) := by
    rw [← hb, ← hw]; cases p <;> rfl
  have rising : ∀ v : State, v.restful p → v.events = s.events → v.nodeTime = s.nodeTime → v.params = s.params →
      (v.aside p (s.trunk p).link.heard s.events (s.choices + 1)).linkUp p = v.aside p .risen up (s.choices + 2) := by
    intro v hr' h1 h2 h3
    rw [State.linkUp_restful (State.restful_of_tx (v.aside_tx p _ _ _) hr'), ← behind v .risen _ h1 h2 h3]
    have risen : { (s.trunk p).link.heard with up := true } = Link.risen := by
      simp [Link.heard, Link.risen, hu, hr]
    rw [← risen]
    cases p <;> rfl
  have bself : f b = (f b).aside p ((f b).trunk p).link s.events (f b).choices := by rw [← hte]; cases p <;> rfl
  rw [State.hear_completes he hu hr, heard, target, rising b brest bevents btime.1 btime.2,
    (keeps up upne upstuck).aside bevents hte, quiet, rising (f b) same.restful hte ftime.1 ftime.2, ite_self]
  exact s.settle_of_mgmt (by
    have hm : ((f b).aside p .risen up (s.choices + 2)).mgmt = (f b).mgmt := by cases p <;> rfl
    rw [hm, same.mgmt, bmgmt]) hd

/-! ### The symbols -/

theorem State.abandon_mgmt (s : State) (r : Option Nat) : (s.abandon r).mgmt = s.mgmt := by
  cases r with
  | none => rfl
  | some r => exact s.release_mgmt r

theorem State.checkFailed_mgmt (s : State) (p : TrunkPort) (f : RxFrame) : (s.checkFailed p f).mgmt = s.mgmt := by
  unfold State.checkFailed
  rw [State.raiseTrunk_mgmt, State.abandon_mgmt]
  simp

theorem State.takeSof_mgmt (s : State) (p : TrunkPort) : (s.takeSof p).mgmt = s.mgmt := by
  unfold State.takeSof
  split <;> simp [State.checkFailed_mgmt, State.headerBad]

theorem State.judgeHeader_mgmt (s : State) (p : TrunkPort) (f : RxFrame) : (s.judgeHeader p f).mgmt = s.mgmt := by
  unfold State.judgeHeader
  dsimp only
  split
  · simp [State.headerBad]
  · split
    · simp
    · split
      · next r s1 ha => simp [State.fill_mgmt, s.askRoom_mgmt ha]
      · simp

theorem State.takeData_mgmt (s : State) (p : TrunkPort) (b : Byte) : (s.takeData p b).mgmt = s.mgmt := by
  unfold State.takeData
  split
  · rfl
  · dsimp only
    split
    · simp
    · exact s.judgeHeader_mgmt p _
  · next f _ =>
    have body : (s.writeBody f.frame (10 + f.after) b).mgmt = s.mgmt := by
      cases f.frame with
      | none => rfl
      | some r => exact s.writeFrameByte_mgmt r _ b
    simp [body]
  · split
    · simp
    · exact s.checkFailed_mgmt p _

theorem State.takeEof_mgmt (s : State) (p : TrunkPort) : (s.takeEof p).mgmt = s.mgmt := by
  have disposed : ∀ f, (s.dispose p f).mgmt = s.mgmt := by
    intro f
    unfold State.dispose
    split
    · exact s.checkFailed_mgmt p f
    · split
      · rw [State.raiseTrunk_mgmt, State.abandon_mgmt]
        simp
      · split
        · simp [State.storeFrame]
        · simp
  unfold State.takeEof
  split
  · rfl
  · simp [State.headerBad]
  · exact s.checkFailed_mgmt p _
  · split
    · exact s.checkFailed_mgmt p _
    · exact disposed _

/-- An IDLE or a HELLO as the 64th symbol, at a port with no frame to resume. -/
theorem State.hear_completes_rx {f : Receiver → Receiver} (he : s.enabled p = true) (hu : (s.trunk p).link.up = false)
    (hr : (s.trunk p).link.run + 1 = 64) (hq : s.restful p) (hd : s.resetDue = false) :
    (s.hear p (fun t => t.onRx p f)).settle = (State.setTrunk { s with choices := s.choices + 2 } p { s.trunk p with
      link := .risen, rx := f (s.trunk p).rx }).raiseEvent .linkUp (some (portOf p)) none := by
  generalize hv : State.setTrunk { s with choices := s.choices + 2 } p { s.trunk p with link := .risen } = v
  have risen : { (s.trunk p).link.heard with up := true } = Link.risen := by simp [Link.heard, Link.risen, hu, hr]
  have up : ((s.onLink p Link.heard).chosen.onLink p (fun l => { l with up := true })).chosen = v := by
    rw [← hv, ← risen]; cases p <;> rfl
  have up' : (((s.onLink p Link.heard).chosen.onRx p f).onLink p (fun l => { l with up := true })).chosen = v.onRx p f := by
    rw [← up]; cases p <;> rfl
  have target : State.setTrunk { s with choices := s.choices + 2 } p { s.trunk p with
      link := .risen, rx := f (s.trunk p).rx } = v.onRx p f := by rw [← hv]; cases p <;> rfl
  have late : (v.raiseEvent .linkUp (some (portOf p)) none).onRx p f =
      (v.onRx p f).raiseEvent .linkUp (some (portOf p)) none :=
    (State.raiseEvent_onTrunk (unseenByPlacement_rx f) v p _ _ _).symm
  rw [State.hear_completes he hu hr, State.linkUp_restful (State.restful_of_tx (s := s) (by cases p <;> rfl) hq),
    State.linkUp_restful (State.restful_of_tx (s := s) (by cases p <;> rfl) hq), up, up', late, target, ite_self]
  refine s.settle_of_mgmt ?_ hd
  rw [State.raiseEvent_mgmt, ← hv]
  cases p <;> rfl

/-- Settles O20. -/
theorem runOfSymbolsTakesLinkUp : Obligations.RunOfSymbolsTakesLinkUp := by
  intro s p he hu hr hq hd
  have work : ∀ {F : List Part} {f : State → State}, (∀ u, Work F u (f u)) → Part.nodeTime ∉ F → Part.params ∉ F →
      ∀ u, (f u).nodeTime = u.nodeTime ∧ (f u).params = u.params := fun hw h1 h2 u =>
    ⟨(hw u).same .nodeTime h1, (hw u).same .params h2⟩
  refine ⟨?_, congrArg Host.Outcome.next (State.hear_completes_rx he hu hr hq hd), fun b q why t hev c hc ht hte => ?_⟩
  · have k := State.hear_completes_rx (f := id) he hu hr hq hd
    have same : (fun t : State => t.onRx p id) = fun t => t := by funext t; cases p <;> rfl
    rw [same] at k
    exact congrArg Host.Outcome.next k
  · have as : ∀ {f : State → State}, (∀ u : State, u.restful p → ∀ ev : EventQueue, ev.records ≠ [] →
        (s.events.stuck → ev.stuck) → u.TakesAside p s.events ev f) →
        (∀ u : State, (f u).nodeTime = u.nodeTime ∧ (f u).params = u.params) →
        Host.Outcome.next (State.hear (State.setTrunk { s with choices := s.choices + 2 } p { s.trunk p with
          link := { (s.trunk p).link with run := 0 } }) p f).settle = (.next t : Outcome) →
        (Host.Outcome.next (s.hear p f).settle : Outcome) = .next ((t.setTrunk p { t.trunk p with
          link := .risen }).raiseEvent .linkUp (some (portOf p)) none) := fun hf hk ht =>
      congrArg Host.Outcome.next (State.hear_completes_as he hu hr hq hd hev hf hk (Host.Outcome.next.inj ht) hte)
    simp only [List.mem_cons, List.not_mem_nil, or_false] at hc
    rcases hc with rfl | rfl | rfl | rfl | rfl | rfl | rfl
    · exact as (fun u hu ev h1 h2 => Work.takesAside (blind_takeSof hev h1 h2) (.takeSof u p) (by simp)
        (u.takeSof_mgmt p) hu) (work (fun u => .takeSof u p) (by simp) (by simp)) ht
    · exact as (fun u hu ev h1 h2 => Work.takesAside (blind_takeData hev h1 h2 b) (.takeData u p b) (by simp)
        (u.takeData_mgmt p b) hu) (work (fun u => .takeData u p b) (by simp) (by simp)) ht
    · exact as (fun u hu ev h1 h2 => Work.takesAside (blind_takeEof hev h1 h2) (.takeEof u p) (by simp)
        (u.takeEof_mgmt p) hu) (work (fun u => .takeEof u p) (by simp) (by simp)) ht
    · exact as (fun u hu ev _ _ => State.takesAside_takeAck hu q) (work (fun u => .takeAck u p q) (by simp) (by simp)) ht
    · exact as (fun u hu ev h1 h2 => State.takesAside_takeNak hev h1 h2 hu q why)
        (work (fun u => .takeNak u p q why) (by simp) (by simp)) ht
    · have hello : Deaf p (fun u => u.takeHello p) := fun u => ⟨u.onRx_events p _, fun _ _ _ => by cases p <;> rfl⟩
      exact as (fun u hu ev _ _ => Work.takesAside hello.blind (.takeHello u p) (by simp) (u.onRx_mgmt p _) hu)
        (work (fun u => .takeHello u p) (by simp) (by simp)) ht
    · exact as (fun u hu ev _ _ => Work.takesAside (Deaf.id p).blind (Work.refl [] u) (by simp) rfl hu)
        (fun u => ⟨rfl, rfl⟩) ht

end Sys2Proof.Machine

end

section
/-! The UP event with a suspended frame (R85): it is sent again, or discarded for residence. -/

namespace Sys2Proof.Machine

variable {s t u : State} {p : TrunkPort} {e : Entry}

/-! ### An event leaves the records in use alone -/

theorem State.record_enqueue {r x : Nat} (h : x ≠ r) (s : State) (q : Port) (c : TrafficClass) :
    (s.enqueue q c r).record x = s.record x := by
  unfold State.enqueue
  dsimp only
  rw [State.record_setRecord, if_neg h]
  cases q <;> rfl

theorem State.record_place {r x : Nat} (h : x ≠ r) (s : State) (q : Port) (c : TrafficClass) :
    (s.place q c r).record x = s.record x := by
  unfold State.place
  split
  · exact State.record_enqueue h s q c
  · cases q <;> rfl

theorem State.record_append (s : State) (k : EventKind) (q : Option Port) (d : Option Half) (x : Nat) :
    (s.append k q d).record x = s.record x := by
  unfold State.record
  rw [State.append_store]

theorem State.record_examineQuietly (s : State) (x : Nat) : s.examineQuietly.record x = s.record x := by
  unfold State.examineQuietly
  split
  · split
    · exact State.record_append _ _ _ _ _
    · rfl
  · split <;> rfl

theorem State.record_announce (s : State) (x : Nat) : s.announce.record x = s.record x := by
  unfold State.record
  rw [State.announce_store]

theorem State.record_releaseSkippedNotice (s : State) (r x : Nat) : (s.releaseSkippedNotice r).record x = s.record x := by
  unfold State.releaseSkippedNotice
  split
  · rw [State.record_announce, State.record_examineQuietly]; rfl
  · rfl

theorem State.record_takeRoom {src : Source} {len r x : Nat} (ht : s.takeRoom src len = some (r, t)) (h : x ≠ r) :
    t.record x = s.record x := by
  unfold State.takeRoom at ht
  split at ht
  · cases ht
  · split at ht
    · cases ht
      unfold State.record
      dsimp only
      exact Sparse.get_set_other FrameRecord.blank s.store.recs _ h
    · cases ht

theorem State.takeRoom_mem {src : Source} {len r : Nat} (ht : s.takeRoom src len = some (r, t)) : r ∈ s.store.freeRecs := by
  unfold State.takeRoom at ht
  split at ht
  · cases ht
  · next hr =>
    split at ht
    · cases ht; rw [hr]; exact List.mem_cons_self
    · cases ht

theorem State.record_sendNotice {x : Nat} (h : x ∉ s.store.freeRecs) (ev : EventRecord) :
    (s.sendNotice ev).record x = s.record x := by
  unfold State.sendNotice
  split
  · rfl
  · next r s1 ht =>
    have hx : x ≠ r := fun k => h (k ▸ State.takeRoom_mem ht)
    have flag : ∀ u : State, u.setNotice.record x = u.record x := fun _ => rfl
    have byDest : ∀ (u : State) (d : Station), (u.placeByDest d r).record x = u.record x := by
      intro u d
      unfold State.placeByDest
      split
      · exact State.record_place hx u _ 0
      · rfl
    rw [flag, State.record_releaseSkippedNotice, byDest, State.fill_record, State.record_examineQuietly,
      State.record_takeRoom ht hx]

/-- A record that is not free stays as it is through an event. -/
theorem State.record_raiseEvent {x : Nat} (h : x ∉ s.store.freeRecs) (k : EventKind) (q : Option Port) (d : Option Half) :
    (s.raiseEvent k q d).record x = s.record x := by
  unfold State.raiseEvent
  dsimp only
  split
  · rw [State.record_sendNotice (by rw [State.append_store]; exact h), State.record_append]
  · exact State.record_append _ _ _ _ _

/-! ### The UP event -/

theorem State.fresh_congr {r : Nat} (hc : Calm s t) (h : t.record r = s.record r) : t.fresh r = s.fresh r := by
  unfold State.fresh
  rw [h, hc.params, hc.nodeTime]

/-- A port with its link set UP, one free choice used. -/
def State.atUp (s : State) (p : TrunkPort) : State := (s.onLink p (fun l => { l with up := true })).chosen

theorem State.atUp_tx (s : State) (p : TrunkPort) : (s.atUp p).tx p = s.tx p := by cases p <;> rfl

theorem State.atUp_store (s : State) (p : TrunkPort) : (s.atUp p).store = s.store := by cases p <;> rfl

theorem State.atUp_fresh (s : State) (p : TrunkPort) (r : Nat) : (s.atUp p).fresh r = s.fresh r := by cases p <;> rfl

/-- What sending again makes of a port (R70). -/
def Trunk.copying (x : Trunk) : Trunk :=
  { x with
    tx := { x.tx with state := .sending, sent := true, acked := false, timer := none }
    stats := x.stats.on satInc (if x.tx.sent then .retransmissions else .framesSent) }

theorem State.startCopy_onTrunk (s : State) (p : TrunkPort) : s.startCopy p = s.onTrunk p Trunk.copying := s.startCopy_eq p

/-- The UP event sends a suspended frame again: LINK_UP and the transmitter in either order. -/
theorem State.linkUp_copies (hs : (s.tx p).state = .idle) (hf : (s.tx p).inFlight = some e) (hr : s.fresh e.frame = true)
    (hk : ((s.atUp p).raiseEvent .linkUp (some (portOf p)) none).record e.frame = (s.atUp p).record e.frame) :
    s.linkUp p = ((s.atUp p).startCopy p).raiseEvent .linkUp (some (portOf p)) none := by
  have resumed : ∀ u : State, u.tx p = s.tx p → u.fresh e.frame = s.fresh e.frame → u.resume p = u.startCopy p := by
    intro u hu hfr
    unfold State.resume
    rw [hu, if_pos hs, State.retransmit_fresh (by rw [hu]; exact hf) (hfr.trans hr)]
  have calm := (s.atUp p).calm_raiseEvent .linkUp (some (portOf p)) none
  have first := resumed _ ((calm.tx p).trans (s.atUp_tx p)) ((State.fresh_congr calm hk).trans (s.atUp_fresh p _))
  have second := resumed _ (s.atUp_tx p) (s.atUp_fresh p _)
  have commute : ((s.atUp p).raiseEvent .linkUp (some (portOf p)) none).startCopy p =
      ((s.atUp p).startCopy p).raiseEvent .linkUp (some (portOf p)) none := by
    have k : ∀ u : State, u.tx p = s.tx p → u.startCopy p = u.onTrunk p (fun x => { x with
        tx := { x.tx with state := .sending, sent := true, acked := false, timer := none }
        stats := x.stats.on satInc (if (s.tx p).sent then .retransmissions else .framesSent) }) := by
      intro u hu
      rw [State.startCopy_eq, hu, ← hu]; rfl
    rw [k _ (s.atUp_tx p), k _ ((calm.tx p).trans (s.atUp_tx p))]
    have stat : (if (s.tx p).sent then TrunkStat.retransmissions else .framesSent) ≠ .queueFullSkips := by split <;> decide
    exact (State.raiseEvent_onTrunk (unseenByPlacement_tx
      (fun t => { t with state := .sending, sent := true, acked := false, timer := none }) _ stat) _ p _ _ _).symm
  unfold State.linkUp
  dsimp only
  rw [show (s.onLink p (fun l => { l with up := true })).chosen = s.atUp p from rfl, first, second, commute, ite_self]

/-- What the discard of the frame in flight makes of a port (R67, R69). -/
def Trunk.discarded (x : Trunk) (e : Entry) : Trunk :=
  { x with
    tx := x.tx.vacated
    queues := x.queues.without e
    stats := { x.stats with residenceDiscards := satInc x.stats.residenceDiscards } }

theorem State.restored_discardFlight (h : s.roomy) (hf : (s.tx p).inFlight = some e)
    (hw : s.watches (portOf p) e.frame = false) : (s.onTrunk p (·.discarded e)).Restored (s.discardFlight p) := by
  have k := State.restored_leaveFlight_unwatched (s := s.raiseTrunk p .residenceDiscards) (p := p) (e := e)
    (by simpa [State.roomy] using h) (by rw [← hf]; cases p <;> rfl) (by rw [State.watches_of_mgmt (s := s) (by simp)]; exact hw)
  unfold State.discardFlight
  refine (congrArg (State.Restored · _) ?_).mp k
  cases p <;> rfl

/-- The UP event discards a suspended frame that is too old: LINK_UP and the transmitter in either order. -/
theorem State.linkUp_discards (hs : (s.tx p).state = .idle) (hf : (s.tx p).inFlight = some e) (hr : s.fresh e.frame = false)
    (h : s.roomy) (hw : s.watches (portOf p) e.frame = false) (hev : s.events.records ≠ []) :
    (((s.atUp p).onTrunk p (·.discarded e)).append .linkUp (some (portOf p)) none).Restored (s.linkUp p) := by
  have resumed : ∀ u : State, u.tx p = s.tx p → u.fresh e.frame = s.fresh e.frame → u.roomy → u.mgmt = s.mgmt →
      (u.onTrunk p (·.discarded e)).Restored (u.resume p) := by
    intro u hu hfr hroom hm
    unfold State.resume
    rw [hu, if_pos hs, State.retransmit_stale (by rw [hu]; exact hf) (hfr.trans hr)]
    exact State.restored_discardFlight hroom (by rw [hu]; exact hf) (by rw [State.watches_of_mgmt hm]; exact hw)
  have room : (s.atUp p).roomy := by unfold State.roomy; rw [State.atUp_store]; exact h
  have events : (s.atUp p).events = s.events := by cases p <;> rfl
  have mgmt : (s.atUp p).mgmt = s.mgmt := by cases p <;> rfl
  have calm := (s.atUp p).calm_append .linkUp (some (portOf p)) none
  unfold State.linkUp
  dsimp only
  rw [show (s.onLink p (fun l => { l with up := true })).chosen = s.atUp p from rfl]
  split
  · rw [(s.atUp p).raiseEvent_behind _ _ _ (by rw [events]; exact hev), State.append_onTrunk]
    exact resumed _ ((calm.tx p).trans (s.atUp_tx p))
      ((State.fresh_congr calm (State.record_append _ _ _ _ _)).trans (s.atUp_fresh p _))
      (by unfold State.roomy; rw [State.append_store]; exact room) ((State.append_mgmt _ _ _ _).trans mgmt)
  · have k := resumed _ (s.atUp_tx p) (s.atUp_fresh p _) room mgmt
    rw [State.raiseEvent_behind _ _ _ (by rw [k.events]; cases p <;> exact hev)]
    exact k.append _ _ _

/-! ### The 64th symbol at a port with a suspended frame -/

/-- A port after its run has taken the link UP, the symbol heard, before LINK_UP and the transmitter. -/
def State.risen (s : State) (p : TrunkPort) : State :=
  State.setTrunk { s with choices := s.choices + 2 } p { s.trunk p with link := .risen }

theorem State.heard_atUp (hu : (s.trunk p).link.up = false) (hr : (s.trunk p).link.run + 1 = 64) :
    (s.onLink p Link.heard).chosen.atUp p = s.risen p := by
  have h : { (s.trunk p).link.heard with up := true } = Link.risen := by simp [Link.heard, Link.risen, hu, hr]
  unfold State.risen
  rw [← h]
  cases p <;> rfl

theorem State.append_onRx (s : State) (p : TrunkPort) (f : Receiver → Receiver) (k : EventKind) (q : Option Port)
    (d : Option Half) : (s.onRx p f).append k q d = (s.append k q d).onRx p f := s.append_onTrunk p _ k q d

section
variable (he : s.enabled p = true) (hu : (s.trunk p).link.up = false) (hr : (s.trunk p).link.run + 1 = 64)
  (hs : (s.tx p).state = .idle) (hf : (s.tx p).inFlight = some e)
include he hu hr hs hf

/-- A symbol that only the receiver takes, as the 64th: the suspended frame is sent again. -/
theorem State.hear_copies {F : State → State} {f : Receiver → Receiver}
    (hF : ∀ u : State, (u.trunk p).rx = (s.trunk p).rx → F u = u.onRx p f) (hfresh : s.fresh e.frame = true)
    (hfree : e.frame ∉ s.store.freeRecs) :
    s.hear p F = (((s.risen p).startCopy p).onRx p f).raiseEvent .linkUp (some (portOf p)) none := by
  generalize hv : (s.onLink p Link.heard).chosen = v
  have vtx : v.tx p = s.tx p := by rw [← hv]; cases p <;> rfl
  have vrx : (v.trunk p).rx = (s.trunk p).rx := by rw [← hv]; cases p <;> rfl
  have vfresh : ∀ u : State, u = v ∨ u = v.onRx p f → u.fresh e.frame = true := by
    rintro u (rfl | rfl) <;> rw [← hfresh, ← hv] <;> cases p <;> rfl
  have up : v.atUp p = s.risen p := hv ▸ State.heard_atUp hu hr
  have keeps : ∀ u : State, u.store = s.store → (u.raiseEvent .linkUp (some (portOf p)) none).record e.frame =
      u.record e.frame := fun u hst => State.record_raiseEvent (by rw [hst]; exact hfree) _ _ _
  have first := v.linkUp_copies (by rw [vtx]; exact hs) (by rw [vtx]; exact hf) (vfresh v (.inl rfl))
    (keeps _ (by rw [State.atUp_store, ← hv]; cases p <;> rfl))
  have rtx : (v.onRx p f).tx p = s.tx p := by rw [← vtx]; cases p <;> rfl
  have second := (v.onRx p f).linkUp_copies (by rw [rtx]; exact hs) (by rw [rtx]; exact hf) (vfresh _ (.inr rfl))
    (keeps _ (by rw [State.atUp_store, ← hv]; cases p <;> rfl))
  have swap : (v.onRx p f).atUp p = (v.atUp p).onRx p f := by cases p <;> rfl
  have swap' : ((v.atUp p).onRx p f).startCopy p = ((v.atUp p).startCopy p).onRx p f := by cases p <;> rfl
  have late : (((v.atUp p).startCopy p).onRx p f).raiseEvent .linkUp (some (portOf p)) none =
      (((v.atUp p).startCopy p).raiseEvent .linkUp (some (portOf p)) none).onRx p f :=
    State.raiseEvent_onTrunk (unseenByPlacement_rx f) _ p _ _ _
  have upRx : ((v.linkUp p).trunk p).rx = (s.trunk p).rx := by
    rw [first, (State.calm_raiseEvent _ _ _ _).rx, ← vrx]
    cases p <;> rfl
  rw [State.hear_completes he hu hr, hv, hF _ upRx, hF v vrx, first, second, swap, swap', ← late, up, ite_self]

/-- A symbol that only the receiver takes, as the 64th: the suspended frame is discarded. -/
theorem State.hear_discards {F : State → State} {f : Receiver → Receiver}
    (hF : ∀ u : State, (u.trunk p).rx = (s.trunk p).rx → F u = u.onRx p f) (hfresh : s.fresh e.frame = false)
    (h : s.roomy) (hw : s.watches (portOf p) e.frame = false) (hev : s.events.records ≠ []) :
    ((((s.risen p).onTrunk p (·.discarded e)).onRx p f).append .linkUp (some (portOf p)) none).Restored (s.hear p F) := by
  generalize hv : (s.onLink p Link.heard).chosen = v
  have vrx : (v.trunk p).rx = (s.trunk p).rx := by rw [← hv]; cases p <;> rfl
  have up : v.atUp p = s.risen p := hv ▸ State.heard_atUp hu hr
  have gone : ∀ u : State, u = v ∨ u = v.onRx p f →
      (((u.atUp p).onTrunk p (·.discarded e)).append .linkUp (some (portOf p)) none).Restored (u.linkUp p) := by
    intro u hu'
    have htx : u.tx p = s.tx p := by rcases hu' with rfl | rfl <;> rw [← hv] <;> cases p <;> rfl
    have hm : u.mgmt = s.mgmt := by rcases hu' with rfl | rfl <;> rw [← hv] <;> cases p <;> rfl
    refine State.linkUp_discards (by rw [htx]; exact hs) (by rw [htx]; exact hf) ?_ ?_
      (by rw [State.watches_of_mgmt hm]; exact hw) ?_
    · rw [← hfresh]; rcases hu' with rfl | rfl <;> rw [← hv] <;> cases p <;> rfl
    · rcases hu' with rfl | rfl <;> rw [← hv] <;> cases p <;> exact h
    · rcases hu' with rfl | rfl <;> rw [← hv] <;> cases p <;> exact hev
  have swap : ((v.onRx p f).atUp p).onTrunk p (·.discarded e) = ((v.atUp p).onTrunk p (·.discarded e)).onRx p f := by
    cases p <;> rfl
  have first := gone v (.inl rfl)
  have second := gone _ (.inr rfl)
  rw [swap, up] at second
  rw [up] at first
  have upRx : ((v.linkUp p).trunk p).rx = (s.trunk p).rx := by
    rw [first.trunk p]
    unfold State.append
    split <;> cases p <;> rfl
  rw [State.hear_completes he hu hr, hv]
  split
  · rw [hF _ upRx, State.append_onRx]
    have k := first.setTrunk p { (v.linkUp p).trunk p with rx := f ((v.linkUp p).trunk p).rx }
    rw [first.trunk p] at k
    rw [State.onRx_eq, State.onRx_eq, first.trunk p]
    exact k
  · rw [hF v vrx]
    exact second

end

end Sys2Proof.Machine

end

section
/-! LinkUpResumesFrame. -/

namespace Sys2Proof.Machine

variable {s t u : State} {p : TrunkPort} {e : Entry}

theorem State.append_trunk (s : State) (k : EventKind) (q : Option Port) (d : Option Half) (y : TrunkPort) :
    (s.append k q d).trunk y = s.trunk y := by
  unfold State.append
  split <;> cases y <;> rfl

theorem State.onRx_self {x : Receiver} (h : (s.trunk p).rx = x) : s.onRx p (fun _ => x) = s := by
  subst h; cases p <;> rfl

/-- The port after a symbol that only the receiver takes has resumed the suspended frame. -/
theorem State.risen_copies (s : State) (p : TrunkPort) (x : Receiver) : ((s.risen p).startCopy p).onRx p (fun _ => x) =
    State.setTrunk { s with choices := s.choices + 2 } p { s.trunk p with
      link := .risen
      rx := x
      tx := { (s.tx p) with state := .sending, sent := true, acked := false, timer := none }
      stats :=
        if (s.tx p).sent then { (s.trunk p).stats with retransmissions := satInc (s.trunk p).stats.retransmissions }
        else { (s.trunk p).stats with framesSent := satInc (s.trunk p).stats.framesSent } } := by
  have htx : (s.risen p).tx p = s.tx p := by cases p <;> rfl
  rw [State.startCopy_eq, htx]
  cases (s.tx p).sent <;> cases p <;> rfl

theorem State.Restored.chosen (h : s.Restored t) : s.chosen.Restored t.chosen := by
  obtain ⟨st, x, e, hm, hr⟩ := h
  refine ⟨st, x, ?_, hm, hr⟩
  rw [e]; rfl

theorem State.Restored.atUp (h : s.Restored t) (p : TrunkPort) : (s.atUp p).Restored (t.atUp p) := by
  unfold State.atUp
  rw [State.onLink_eq, State.onLink_eq, h.trunk p]
  exact (h.setTrunk p _).chosen

theorem State.raisedUp_events (he : t.events = s.events) (hn : t.nodeTime = s.nodeTime) (hp : t.params = s.params)
    (hev : s.events.records ≠ []) : (t.append .linkUp (some (portOf p)) none).events =
      (s.raiseEvent .linkUp (some (portOf p)) none).events := by
  rw [s.raiseEvent_behind _ _ _ hev]
  exact State.append_events_congr he hn hp _ _ _

/-- What the three clauses say of every part of the node but the port. -/
structure State.RoseBeside (s : State) (p : TrunkPort) (t : State) : Prop where
  other : t.trunk (otherPort p) = s.trunk (otherPort p)
  locQueues : t.loc.queues = s.loc.queues
  events : t.events = (s.raiseEvent .linkUp (some (portOf p)) none).events
  steer : t.steer = s.steer
  mgmt : t.mgmt = s.mgmt
  mem : t.store.mem = s.store.mem

/-- A change of the port with LINK_UP behind it, and records given back. -/
theorem State.Restored.roseBeside {x : Trunk} {n : Nat} (hev : s.events.records ≠ [])
    (h : ((State.setTrunk { s with choices := n } p x).append .linkUp (some (portOf p)) none).Restored t) :
    t.trunk p = x ∧ s.RoseBeside p t := by
  refine ⟨?_, ?_, ?_, ?_, ?_, ?_, ?_⟩
  · rw [h.trunk p, State.append_trunk, State.trunk_setTrunk_same]
  · rw [h.trunk, State.append_trunk]; cases p <;> rfl
  · rw [h.locQueues, State.append_eq]
    cases p <;> rfl
  · rw [h.events]
    exact State.raisedUp_events (State.setTrunk_events _ _ _) (State.setTrunk_nodeTime _ _ _)
      (State.setTrunk_params _ _ _) hev
  · rw [h.steer, (State.calm_append _ _ _ _).steer, State.setTrunk_steer]
  · rw [h.mgmt, State.append_mgmt, State.setTrunk_mgmt]
  · rw [h.mem, State.append_store, State.setTrunk_store]

section
variable (he : s.enabled p = true) (hu : (s.trunk p).link.up = false) (hr : (s.trunk p).link.run + 1 = 64)
  (hs : (s.tx p).state = .idle) (hf : (s.tx p).inFlight = some e)
include he hu hr hs hf

/-- The ACK of the suspended frame as the 64th symbol: it completes the frame, which was found too old or not yet resumed, or
is remembered in the copy begun. -/
theorem State.hear_ack (hsent : (s.tx p).sent = true) (hw : s.watches (portOf p) e.frame = false) (hroom : s.roomy)
    (hev : s.events.records ≠ []) :
    ∃ x : Trunk, (s.hear p (fun t => t.takeAck p (s.tx p).txSeq)).trunk p = x ∧
      s.RoseBeside p (s.hear p (fun t => t.takeAck p (s.tx p).txSeq)) ∧ x.link = .risen ∧ x.rx = (s.trunk p).rx ∧
      (x.tx = (s.tx p).vacated ∧ x.queues = (s.trunk p).queues.without e ∨
        s.fresh e.frame = true ∧ x.tx = { (s.tx p) with state := .sending, acked := true, timer := none } ∧
          x.queues = (s.trunk p).queues ∧
          x.stats = { (s.trunk p).stats with retransmissions := satInc (s.trunk p).stats.retransmissions }) := by
  generalize hv : (s.onLink p Link.heard).chosen = v
  have vtx : v.tx p = s.tx p := by rw [← hv]; cases p <;> rfl
  have vroom : v.roomy := by rw [← hv]; cases p <;> exact hroom
  have vev : v.events = s.events := by rw [← hv]; cases p <;> rfl
  have vw : v.watches (portOf p) e.frame = false := by
    rw [State.watches_of_mgmt (s := s) (by rw [← hv]; cases p <;> rfl)]; exact hw
  have vfresh : v.fresh e.frame = s.fresh e.frame := by rw [← hv]; cases p <;> rfl
  have up : v.atUp p = s.risen p := hv ▸ State.heard_atUp hu hr
  have vidle : (v.tx p).state = .idle := by rw [vtx]; exact hs
  have vflight : (v.tx p).inFlight = some e := by rw [vtx]; exact hf
  have room2 : (s.risen p).roomy := by cases p <;> exact hroom
  rw [State.hear_completes he hu hr, hv]
  split
  · cases hfr : s.fresh e.frame with
    | true =>
      have k := v.linkUp_copies vidle vflight (vfresh.trans hfr) (by
        rw [State.raiseEvent_behind _ _ _ (by rw [up]; cases p <;> exact hev), State.record_append])
      rw [up, State.raiseEvent_behind _ _ _ (by rw [State.startCopy_eq]; cases p <;> exact hev)] at k
      have sending : (v.linkUp p).takeAck p (s.tx p).txSeq = (v.linkUp p).onTx p (fun t => { t with acked := true }) := by
        have htx : (v.linkUp p).tx p = { (s.tx p) with state := .sending, sent := true, acked := false, timer := none } := by
          rw [k, State.tx_eq, State.append_trunk, State.startCopy_eq]
          cases p <;> rfl
        unfold State.takeAck
        rw [htx, if_pos rfl]
        rfl
      have port : ((s.risen p).startCopy p).onTx p (fun t => { t with acked := true }) =
          State.setTrunk { s with choices := s.choices + 2 } p { s.trunk p with
            link := .risen
            tx := { (s.tx p) with state := .sending, acked := true, timer := none }
            stats := { (s.trunk p).stats with retransmissions := satInc (s.trunk p).stats.retransmissions } } := by
        have htx : (s.risen p).tx p = s.tx p := by cases p <;> rfl
        rw [State.startCopy_again (by rw [htx]; exact hsent)]
        cases p <;> rfl
      have base : (v.linkUp p).takeAck p (s.tx p).txSeq = (State.setTrunk { s with choices := s.choices + 2 } p { s.trunk p with
            link := .risen
            tx := { (s.tx p) with state := .sending, acked := true, timer := none }
            stats := { (s.trunk p).stats with retransmissions := satInc (s.trunk p).stats.retransmissions } }).append
            .linkUp (some (portOf p)) none := by
        rw [sending, k, ← port]
        exact (State.append_onTrunk _ p _ _ _ _).symm
      obtain ⟨h1, h2⟩ := State.Restored.roseBeside (t := (v.linkUp p).takeAck p (s.tx p).txSeq) hev (by
        rw [base]
        exact .refl (by unfold State.roomy; rw [State.append_store, State.setTrunk_store]; exact hroom))
      exact ⟨_, h1, h2, rfl, rfl, .inr ⟨rfl, rfl, rfl, rfl⟩⟩
    | false =>
      have k := v.linkUp_discards vidle vflight (vfresh.trans hfr) vroom vw (by rw [vev]; exact hev)
      rw [up] at k
      have stray : (v.linkUp p).takeAck p (s.tx p).txSeq = (v.linkUp p).raiseTrunk p .strayAcks := by
        have htx : ((v.linkUp p).tx p).txSeq = (s.tx p).txSeq + 1 := by
          have hx : (v.linkUp p).tx p = (s.tx p).vacated := by
            rw [k.tx p, State.tx_eq, State.append_trunk]
            cases p <;> rfl
          rw [hx]
          exact if_pos hsent
        unfold State.takeAck
        rw [if_neg (by rw [htx]; bv_omega)]
        rfl
      have g := k.raiseTrunk p .strayAcks
      have port : (((s.risen p).onTrunk p (·.discarded e)).raiseTrunk p .strayAcks).append .linkUp (some (portOf p)) none =
          (((s.risen p).onTrunk p (·.discarded e)).append .linkUp (some (portOf p)) none).raiseTrunk p .strayAcks :=
        State.append_onTrunk _ p _ _ _ _
      have shape : ((s.risen p).onTrunk p (·.discarded e)).raiseTrunk p .strayAcks =
          State.setTrunk { s with choices := s.choices + 2 } p { (Trunk.discarded { s.trunk p with link := .risen } e) with
            stats := (Trunk.discarded { s.trunk p with link := .risen } e).stats.on satInc .strayAcks } := by
        cases p <;> rfl
      rw [← port, shape] at g
      obtain ⟨h1, h2⟩ := g.roseBeside hev
      rw [stray]
      exact ⟨_, h1, h2, rfl, rfl, .inl ⟨rfl, rfl⟩⟩
  · have leaves : v.takeAck p (s.tx p).txSeq = v.leaveFlight p := by
      unfold State.takeAck
      rw [vtx, if_pos rfl, hs, hf]
      rfl
    have k := State.restored_leaveFlight_unwatched vroom vflight vw
    have rest : (v.leaveFlight p).restful p := .inl (by
      rw [k.tx p, State.tx_eq, State.trunk_setTrunk_same]; rfl)
    have g := (k.atUp p).append .linkUp (some (portOf p)) none
    have shape : (v.setTrunk p { v.trunk p with
          tx := (v.tx p).vacated, queues := (v.trunk p).queues.without e }).atUp p =
        State.setTrunk { s with choices := s.choices + 2 } p { s.trunk p with
          link := .risen, tx := (s.tx p).vacated, queues := (s.trunk p).queues.without e } := by
      have hx : (v.setTrunk p { v.trunk p with tx := (v.tx p).vacated, queues := (v.trunk p).queues.without e }).atUp p =
          (v.atUp p).setTrunk p { (v.atUp p).trunk p with
            tx := (v.tx p).vacated, queues := (v.trunk p).queues.without e } := by cases p <;> rfl
      rw [hx, up, vtx, ← hv]
      cases p <;> rfl
    rw [shape] at g
    obtain ⟨h1, h2⟩ := g.roseBeside hev
    have final : (v.takeAck p (s.tx p).txSeq).linkUp p =
        ((v.leaveFlight p).atUp p).append .linkUp (some (portOf p)) none := by
      rw [leaves, State.linkUp_restful rest]
      refine State.raiseEvent_behind (s := (v.leaveFlight p).atUp p) _ _ _ ?_
      have hevents : ((v.leaveFlight p).atUp p).events = s.events := by
        rw [(k.atUp p).events, ← vev]; cases p <;> rfl
      exact fun h => hev (hevents ▸ h)
    rw [final]
    exact ⟨_, h1, h2, rfl, rfl, .inl ⟨rfl, rfl⟩⟩

end

/-- Settles O21. -/
theorem linkUpResumesFrame : Obligations.LinkUpResumesFrame := by
  rintro s p e up age he hu hr hs hf rfl rfl
  refine ⟨fun c x hc => ?_, fun hsent hd hw hroom hev => ?_⟩
  · have taken : ∃ F : State → State, exec c s = .next (s.hear p F).settle ∧
        ∀ u : State, (u.trunk p).rx = (s.trunk p).rx → F u = u.onRx p (fun _ => x) := by
      rcases hc with ⟨rfl, rfl⟩ | ⟨rfl, rfl⟩ | ⟨rfl, hx, rfl⟩
      · exact ⟨_, rfl, fun u hrx => (State.onRx_self hrx).symm⟩
      · refine ⟨_, rfl, fun u hrx => ?_⟩
        rw [← hrx]; cases p <;> rfl
      · refine ⟨_, rfl, fun u hrx => ?_⟩
        rw [State.onRx_self hrx]
        unfold State.takeEof
        rw [hrx, hx]
    obtain ⟨F, hc, hF⟩ := taken
    refine ⟨fun hres hd hfree => ?_, fun hl hres hd hw hroom hev => ?_⟩
    · rw [hc, State.hear_copies he hu hr hs hf hF ((s.fresh_iff _).mpr hres) hfree, State.risen_copies,
        s.settle_of_mgmt (by rw [State.raiseEvent_mgmt, State.setTrunk_mgmt]) hd]
      rfl
    · have k := State.hear_discards he hu hr hs hf hF ((State.fresh_eq_false _).mpr ⟨hl, hres⟩) hroom hw hev
      have shape : ((s.risen p).onTrunk p (·.discarded e)).onRx p (fun _ => x) =
          State.setTrunk { s with choices := s.choices + 2 } p { (Trunk.discarded { s.trunk p with link := .risen } e) with
            rx := x } := by cases p <;> rfl
      rw [shape] at k
      obtain ⟨h1, h2⟩ := k.roseBeside hev
      exact ⟨_, by rw [hc, s.settle_of_mgmt h2.mgmt hd], h1, h2.other, h2.locQueues, h2.events, h2.steer, h2.mgmt, h2.mem⟩
  · obtain ⟨x, hx, beside, hl, hrx, h⟩ := State.hear_ack he hu hr hs hf hsent hw hroom hev
    refine ⟨_, congrArg Host.Outcome.next (s.settle_of_mgmt beside.mgmt hd), ?_, ?_, beside.events, beside.other,
      beside.steer, beside.mgmt, ?_⟩
    · rw [hx, hl]; rfl
    · rw [hx, hrx]
    · rw [State.tx_eq, hx]
      exact h.imp_right fun ⟨hfr, rest⟩ => ⟨(s.fresh_iff _).mp hfr, rest⟩

end Sys2Proof.Machine

end

section
/-! RELEASE_PORT (R80 to R83). -/

namespace Sys2Proof.Machine

variable {s t u : State} {p : TrunkPort}

/-- The row that takes a RELEASE_PORT of a disposition. -/
def Disposition.row : Disposition → Instr
  | .retry => .releasePortRetry
  | .drop => .releasePortDrop
  | .flush => .releasePortFlush

/-- Which commands a row of RELEASE_PORT takes. -/
def Disposition.takes : Disposition → Cmd → Bool
  | .retry, c => hasCode 0x10 c && !namesDisposition .drop c && !namesDisposition .flush c
  | .drop, c => hasCode 0x10 c && namesDisposition .drop c
  | .flush, c => hasCode 0x10 c && namesDisposition .flush c

theorem exec_release (x : Disposition) (s : State) : exec x.row s = .next (runCommand x.takes (bodyRelease x) s) := by
  cases x <;> rfl

theorem Disposition.takes_of_code {x : Disposition} {c : Cmd} {port d : Byte} (hc : hasCode 0x10 c = true)
    (hargs : c.args = [port, d]) (hd : d.toNat = x.code) : x.takes c = true := by
  have names : ∀ y : Disposition, namesDisposition y c = (d.toNat == y.code) := fun y => by
    unfold namesDisposition
    rw [hargs]
    rfl
  cases x <;> simp only [Disposition.takes, hc, names, hd] <;> decide

theorem bodyRelease_eq {x : Disposition} {c : Call} {port d : Byte} (hargs : c.args = [port, d])
    (hp : trunkPortOf port = some p) (hd : d.toNat = x.code) (hl : s.lockRefuses c.requester = false) :
    bodyRelease x c s = if (s.tx p).state ≠ .held then .fail .notHeld else done ((s.carryOut p x).raiseReleased p x) := by
  have h0 : c.arg 0 = port := by unfold Call.arg; rw [hargs]; rfl
  have h1 : c.arg 1 = d := by unfold Call.arg; rw [hargs]; rfl
  unfold bodyRelease
  rw [h0, h1, hp]
  dsimp only
  rw [if_neg (by simp [hd]), if_neg (by simp [hl])]

/-- A RELEASE_PORT of a HELD port. -/
theorem exec_release_held {e : Execution} {c : Cmd} {rest : List Cmd} {port d : Byte} {x : Disposition}
    (h : s.standsAt e c rest) (hargs : c.args = [port, d]) (ha : e.admits c 0x10 0) (hp : trunkPortOf port = some p)
    (hd : d.toNat = x.code) (hl : s.lockRefuses e.requester = false) (hs : (s.tx p).state = .held) :
    exec x.row s = .next (((s.carryOut p x).raiseReleased p x).answerCmd e c rest .ok [] none) := by
  rw [exec_release]
  refine congrArg Host.Outcome.next (runCommand_pass h ha
    (Disposition.takes_of_code (hasCode_of_admits ha) hargs hd) ?_ (Nat.le_refl 0))
  rw [bodyRelease_eq (p := p) hargs hp hd hl, if_neg (by simp [hs])]
  rfl

theorem State.leaveFlight_tx {x : Entry} (hf : (s.tx p).inFlight = some x) : (s.leaveFlight p).tx p = (s.tx p).vacated := by
  rw [(TxWork.leaveFlight s p).tx_eq, Transmitter.left, hf, ← Transmitter.advanced_cleared]
  rfl

theorem QueueSet.keep_none (x : QueueSet) : x.keep (fun _ => false) = .empty := by
  simp [QueueSet.keep, QueueSet.empty]

/-- Settles O47. -/
theorem releasePortCarriesOut : Obligations.ReleasePortCarriesOut := by
  intro s e c rest p port d h hargs hc hp hl
  refine ⟨fun x ha hs hf hsent => ?_, fun i hs hi => ?_⟩
  · have held : ∀ y : Disposition, d.toNat = y.code →
        exec y.row s = .next (((s.carryOut p y).raiseReleased p y).answerCmd e c rest .ok [] none) :=
      fun y hd => exec_release_held h hargs ha hp hd hl hs
    have vacated : (s.tx p).vacated = { state := .idle, txSeq := (s.tx p).txSeq + 1, attempts := 0, inFlight := none
                                        sent := false, acked := false, timer := none } := by
      unfold Transmitter.vacated
      rw [hsent]; rfl
    refine ⟨fun hd hu => ?_, fun hd hu => ?_, fun hd => ⟨_, held .drop (by rw [hd]; rfl), ?_, fun hroom => ?_⟩,
      fun hd => ⟨_, held .flush (by rw [hd]; rfl), ?_, fun hroom => ?_⟩⟩
    · have again : s.carryOut p .retry = s.setTrunk p { s.trunk p with
          tx := { (s.tx p) with state := .sending, attempts := 0, acked := false, timer := none }
          stats := { (s.trunk p).stats with retransmissions := satInc (s.trunk p).stats.retransmissions } } := by
        show s.releaseRetry p = _
        unfold State.releaseRetry
        dsimp only
        rw [if_pos hu, State.startCopy_again (by rw [← hsent]; cases p <;> rfl)]
        cases p <;> rfl
      rw [← again]
      exact held .retry (by rw [hd]; rfl)
    · have suspended : s.carryOut p .retry = s.setTrunk p { s.trunk p with
          tx := { (s.tx p) with state := .idle, attempts := 0, acked := false, timer := none } } := by
        show s.releaseRetry p = _
        unfold State.releaseRetry
        dsimp only
        rw [if_neg (by simp [hu])]
        cases p <;> rfl
      rw [← suspended]
      exact held .retry (by rw [hd]; rfl)
    · rw [← vacated]
      exact State.leaveFlight_tx hf
    · have k := State.restored_leaveFlight_unwatched hroom hf (State.watches_executing h.1 _ _)
      refine ⟨?_, fun y hy => ?_⟩
      · show ((s.leaveFlight p).trunk p).queues = _
        rw [k.trunk p, State.trunk_setTrunk_same]
        rfl
      · show (s.leaveFlight p).queues y = _
        rw [k.queues y]
        have other : ∀ z, (s.setTrunk p z).queues y = s.queues y := fun z => by
          cases p <;> cases y
          case a.a | b.b => exact absurd rfl hy
          all_goals rfl
        exact other _
    · have ktx := (s.calm_removeEntries (portOf p) (fun _ => true)).tx p
      rw [← vacated, ← Transmitter.advanced_cleared]
      show ((s.removeEntries (portOf p) (fun _ => true)).onTx p _).tx p = _
      rw [State.tx_eq, State.onTx_eq, State.trunk_setTrunk_same, ktx]
      rfl
    · have q := (s.removeEntries_queues hroom (portOf p) (fun _ => true)).1
      have kept : ∀ y, (s.releaseFlush p).queues y = (s.removeEntries (portOf p) (fun _ => true)).queues y := fun y => by
        unfold State.releaseFlush
        cases p <;> cases y <;> rfl
      refine ⟨?_, fun y hy => ?_⟩
      · show ((s.releaseFlush p).trunk p).queues = _
        rw [← State.trunk_queues, kept, q, if_pos rfl]
        exact QueueSet.keep_none _
      · show (s.releaseFlush p).queues y = _
        rw [kept, q, if_neg hy]
  · have fails : ∀ y : Disposition, d.toNat = y.code → exec y.row s = .next (s.answerCmd e c rest .notHeld [] none) := by
      intro y hd
      rw [exec_release]
      refine congrArg Host.Outcome.next (runCommand_fail_of_formed h hc
        (Disposition.takes_of_code (hasCode_of_formed hc) hargs hd) ?_)
      rw [bodyRelease_eq (p := p) hargs hp hd hl, if_pos hs]
    rcases hi with ⟨rfl, rfl⟩ | ⟨rfl, rfl⟩ | ⟨rfl, rfl⟩
    · exact fails .retry rfl
    · exact fails .drop rfl
    · exact fails .flush rfl

end Sys2Proof.Machine

end

section
/-! The edit session, READ_EVENTS, RESET_NODE, the meters and the parameters. -/

namespace Sys2Proof.Machine

variable {s t u : State}

/-! ### The edit session (R131 to R141) -/

theorem State.closeSession_eq (s : State) : s.closeSession = { s with
    session := { state := .closed, owner := none, timer := none, cursor := s.session.cursor, swapRequested := false
                 swapTaken := false } } := rfl

/-- Settles O37. -/
theorem sessionOpensAndCloses : Obligations.SessionOpensAndCloses := by
  refine ⟨fun s e c rest h => ⟨fun ha => ⟨fun hs => ?_, fun hs ho => ?_, fun hs ho => ?_⟩, fun ha hs ho => ?_⟩,
    fun s hs ht => ?_⟩
  · refine congrArg Host.Outcome.next (runCommand_pass h ha (hasCode_of_admits ha) ?_ (Nat.le_refl 0))
    unfold bodyOpenEdit
    rw [hs]
    rfl
  · refine congrArg Host.Outcome.next (runCommand_pass h ha (hasCode_of_admits ha) ?_ (Nat.le_refl 0))
    unfold bodyOpenEdit
    rw [if_pos ho]
    cases hx : s.session.state with
    | closed => exact absurd hx hs
    | opened | syncing => rfl
  · refine congrArg Host.Outcome.next (runCommand_fail h ha (hasCode_of_admits ha) ?_)
    unfold bodyOpenEdit
    rw [if_neg ho]
    cases hx : s.session.state with
    | closed => exact absurd hx hs
    | opened | syncing => rfl
  · refine congrArg Host.Outcome.next (runCommand_pass h ha (hasCode_of_admits ha) ?_ (Nat.le_refl 0))
    have check : s.sessionCheck e.requester false = none := by
      unfold State.sessionCheck
      cases hx : s.session.state with
      | closed => exact absurd hx hs
      | opened | syncing => simp [ho]
    unfold bodyCloseEdit
    rw [check]
    rfl
  · exact if_pos ⟨hs, ht⟩

/-- The session check passes the owner in OPEN (R136). -/
theorem sessionCheck_opened {e : Execution} (hs : s.session.state = .opened) (ho : s.session.owner = some e.requester)
    (w : Bool) : s.sessionCheck e.requester w = none := by
  unfold State.sessionCheck
  rw [hs]
  exact if_pos ho

theorem State.setShadow_eq (s : State) (b : Bank) : s.setShadow b = { s with steer := (s.setShadow b).steer } := by
  unfold State.setShadow
  split <;> rfl

/-- Settles O38. -/
theorem shadowWritesReplaceEntry : Obligations.ShadowWritesReplaceEntry := by
  intro s e c rest h hs ho
  refine ⟨fun index bytes x ha hargs hx => ?_, fun index b ha hargs hi => ?_⟩
  · refine ⟨s.setShadow (s.shadowBank.setEntry index.toNat x), ?_, s.setShadow_eq _, by simp, by simp, ?_, fun i hi => ?_, ?_⟩
    · refine congrArg Host.Outcome.next (runCommand_pass h ha (hasCode_of_admits ha) ?_ (Nat.le_refl 0))
      unfold bodyWriteSteer Call.arg
      rw [sessionCheck_opened hs ho, hargs, List.drop_one, List.tail_cons, hx]
      rfl
    · simp [Bank.entry_setEntry]
    · simp [Bank.entry_setEntry, hi]
    · simp [Bank.setEntry]
  · refine ⟨s.setShadow (s.shadowBank.setMapEntry index.toNat (decodeMapEntry b)), ?_, s.setShadow_eq _, by simp, by simp, ?_,
      fun i hi => ?_, ?_⟩
    · refine congrArg Host.Outcome.next (runCommand_pass h ha (hasCode_of_admits ha) ?_ (Nat.le_refl 0))
      have h0 : byteAt [index, b] 0 = index := rfl
      unfold bodyWriteChmap Call.arg
      rw [sessionCheck_opened hs ho, hargs, h0]
      exact if_neg (by omega)
    · simp [Bank.mapEntry_setMapEntry]
    · simp [Bank.mapEntry_setMapEntry, hi]
    · simp [Bank.setMapEntry]

/-- Settles O40. -/
theorem syncCopiesEntryByEntry : Obligations.SyncCopiesEntryByEntry := by
  intro s
  refine ⟨fun e c rest h ha hs ho => ?_, fun hs => ⟨s.copyStep, if_pos hs, ?_, ?_, ?_, ?_, fun hn => ?_, fun hn => ?_⟩⟩
  · refine congrArg Host.Outcome.next (runCommand_pass h ha (hasCode_of_admits ha) ?_ (Nat.le_refl 0))
    unfold bodySync
    rw [sessionCheck_opened hs ho]
    rfl
  · unfold State.copyStep
    dsimp only
    rw [State.setShadow_eq]
  · unfold State.copyStep
    dsimp only
    rw [State.setShadow_session]
  · exact State.activeBank_setShadow _ _
  · exact State.selector_setShadow _ _
  · have hb : s.copyStep.shadowBank = s.shadowBank.setEntry s.session.cursor (s.activeBank.entry s.session.cursor) := by
      refine Eq.trans (State.shadowBank_setShadow _ _) ?_
      exact if_pos hn
    rw [hb]
    exact ⟨by simp [Bank.entry_setEntry], fun i hi => by simp [Bank.entry_setEntry, hi]⟩
  · have hb : s.copyStep.shadowBank =
        s.shadowBank.setMapEntry (s.session.cursor - 256) (s.activeBank.mapEntry (s.session.cursor - 256)) := by
      refine Eq.trans (State.shadowBank_setShadow _ _) ?_
      exact if_neg (by omega)
    rw [hb]
    exact ⟨by simp [Bank.mapEntry_setMapEntry], fun i hi => by simp [Bank.mapEntry_setMapEntry, hi]⟩

/-- Settles O41. -/
theorem commitSwapsBanks : Obligations.CommitSwapsBanks := by
  intro s e c rest h ha hs ho
  have code := hasCode_of_admits ha
  refine ⟨fun hr => congrArg Host.Outcome.next ?_, fun hr ht => ⟨s.swapBanks, if_pos (by simp [hr, ht]), ?_, rfl, ?_, ?_, rfl⟩,
    fun hr ht => congrArg Host.Outcome.next ?_⟩
  · have verdict : verdictOf e c rest bodyCommit s = .pass (halfBytes (s.steer.generation + 1)) none
        { s with session := { s.session with timer := none, swapRequested := true, swapTaken := false } } := by
      obtain ⟨hc, hlen, hroom⟩ := ha
      unfold verdictOf bodyCommit
      rw [hc, if_neg (not_not.mpr hlen), sessionCheck_opened hs ho]
      exact if_pos hroom
    unfold State.takeCommit
    rw [h.current]
    dsimp only
    rw [if_pos (by rw [code, hr]; rfl), verdict]
  · show otherBank s.steer.selector ≠ s.steer.selector
    cases s.steer.selector <;> decide
  · cases hx : s.steer.selector <;> simp [State.activeBank, State.shadowBank, State.swapBanks, Steering.bank, otherBank, hx]
  · cases hx : s.steer.selector <;> simp [State.activeBank, State.shadowBank, State.swapBanks, Steering.bank, otherBank, hx]
  · unfold State.completeCommit
    rw [h.current]
    dsimp only
    rw [if_pos (by rw [code, hr, ht]; rfl)]
    rfl

/-! ### The reads of a bank (R139) -/

/-- What a read of a bank answers, its first failing check deciding. -/
theorem readBank_eq {c : Call} {code index count : Byte} (hargs : c.args = [code, index, count]) (s : State) (maxCount top : Nat)
    (record : Bank → Nat → List Byte) : readBank c s maxCount top record =
      match s.bankOf code with
      | none => .fail .badValue
      | some b =>
        if count.toNat = 0 ∨ maxCount < count.toNat then .fail .badValue
        else if top < index.toNat + count.toNat - 1 then .fail .badIndex
        else if code = 1 ∧ s.session.state = .syncing then .fail .busy
        else reads ((List.range count.toNat).flatMap (fun i => record b (index.toNat + i))) s := by
  unfold readBank Call.arg
  rw [hargs]
  rfl

theorem State.bankOf_of_one_lt (s : State) {code : Byte} (h : 1 < code.toNat) : s.bankOf code = none := by
  unfold State.bankOf
  split
  · next h0 => omega
  · next h1 => omega
  · rfl

theorem State.bankOf_of_le_one (s : State) {code : Byte} (h : code.toNat ≤ 1) : ∃ b, s.bankOf code = some b := by
  unfold State.bankOf
  split
  · exact ⟨_, rfl⟩
  · exact ⟨_, rfl⟩
  · next x h0 h1 => exact absurd h (fun h => (Nat.le_one_iff_eq_zero_or_eq_one.mp h).elim h0 h1)

theorem Byte.ne_zero_iff (x : Byte) : x ≠ 0 ↔ x.toNat ≠ 0 := by
  rw [ne_eq, ← BitVec.toNat_inj]
  rfl

/-- Settles O39. -/
theorem bankReadsReturnEntries : Obligations.BankReadsReturnEntries := by
  refine ⟨fun s e c rest code index count b h hargs hn hb => ?_,
    fun s e c rest code index count i max entries h hargs hi => ?_⟩
  · have n0 := (Byte.ne_zero_iff count).mp hn
    have bank : s.bankOf code = some b := by rcases hb with ⟨rfl, rfl⟩ | ⟨rfl, rfl, -⟩ <;> rfl
    have free : ¬ (code = 1 ∧ s.session.state = .syncing) := by
      rintro ⟨rfl, hs⟩
      rcases hb with ⟨h0, -⟩ | ⟨-, -, hb⟩
      · exact absurd h0 (by decide)
      · exact hb hs
    have reads_ : ∀ (x : Bool) (maxCount top : Nat) (record : Bank → Nat → List Byte), count.toNat ≤ maxCount →
        index.toNat + count.toNat ≤ top + 1 →
        readBank { requester := e.requester, args := c.args, isLast := x } s maxCount top record =
          reads ((List.range count.toNat).flatMap (fun i => record b (index.toNat + i))) s := by
      intro x maxCount top record h1 h2
      rw [readBank_eq (code := code) (index := index) (count := count) hargs, bank]
      dsimp only
      rw [if_neg (by omega), if_neg (by omega), if_neg free]
    refine ⟨fun ha h1 h2 => ?_, fun ha h1 h2 => ?_⟩
    · refine congrArg Host.Outcome.next (runCommand_pass h ha (hasCode_of_admits ha) (reads_ _ 8 255 _ h1 (by omega)) ?_)
      rw [length_flatMap_const _ 20 (fun a => encodeEntry_length _), List.length_range]
    · refine congrArg Host.Outcome.next (runCommand_pass h ha (hasCode_of_admits ha) (reads_ _ 16 63 _ h1 (by omega)) ?_)
      rw [length_flatMap_const _ 1 (fun a => rfl), List.length_range]
      exact le_of_eq (Nat.one_mul _)
  · have fails : ∀ r, (∀ (x : Bool) (record : Bank → Nat → List Byte),
        readBank { requester := e.requester, args := c.args, isLast := x } s max (entries - 1) record = .fail r) →
        exec i s = .next (s.answerCmd e c rest r [] none) := by
      intro r hr
      rcases hi with ⟨hf, rfl, rfl, rfl⟩ | ⟨hf, rfl, rfl, rfl⟩ <;>
        exact congrArg Host.Outcome.next (runCommand_fail_of_formed h hf (hasCode_of_formed hf) (hr _ _))
    have big : 0 < entries := by rcases hi with ⟨-, -, -, rfl⟩ | ⟨-, -, -, rfl⟩ <;> decide
    refine ⟨fun hbad => fails _ fun x record => ?_, fun hc hn hm hl => fails _ fun x record => ?_,
      fun hc hs hn hm hl => fails _ fun x record => ?_⟩ <;>
      rw [readBank_eq (code := code) (index := index) (count := count) hargs]
    · by_cases h1 : 1 < code.toNat
      · rw [s.bankOf_of_one_lt h1]
      · obtain ⟨b, hb⟩ := s.bankOf_of_le_one (code := code) (by omega)
        rw [hb]
        refine if_pos ?_
        rcases hbad with hbad | rfl | hbad
        · exact absurd hbad h1
        · exact .inl rfl
        · exact .inr hbad
    · obtain ⟨b, hb⟩ := s.bankOf_of_le_one hc
      have n0 := (Byte.ne_zero_iff count).mp hn
      rw [hb]
      dsimp only
      rw [if_neg (by omega), if_pos (by omega)]
    · have n0 := (Byte.ne_zero_iff count).mp hn
      have hb : s.bankOf code = some s.shadowBank := by rw [hc]; rfl
      rw [hb]
      dsimp only
      rw [if_neg (by omega), if_neg (by omega), if_pos ⟨hc, hs⟩]

/-! ### READ_EVENTS and RESET_NODE -/

/-- Settles O48. -/
theorem readEventsDrainsQueue : Obligations.ReadEventsDrainsQueue := by
  intro s e c rest max n h hargs hm h16 hn ha
  have m0 := (Byte.ne_zero_iff max).mp hm
  have flag : (s.events.noticeOutstanding && !(s.events.records.drop n).isEmpty) =
      if s.events.records.length ≤ n then false else s.events.noticeOutstanding := by
    split
    · next hl => rw [List.drop_eq_nil_of_le hl]; simp
    · next hl =>
      have : s.events.records.drop n ≠ [] := by
        rw [ne_eq, List.drop_eq_nil_iff]; exact hl
      simp [this]
  rw [← flag]
  refine congrArg Host.Outcome.next (runCommand_pass h ha (hasCode_of_admits ha) ?_ ?_)
  · have h0 : byteAt [max] 0 = max := rfl
    unfold bodyReadEvents Call.arg
    rw [hargs, h0]
    dsimp only
    rw [if_neg (by omega), ← hn]
    rfl
  · simp only [List.length_append, halfBytes_length, List.length_singleton]
    rw [length_flatMap_const _ 10 (fun a => eventBytes_length a), List.length_take]
    omega

theorem scopeOf_eq_none {x : Byte} (h1 : x ≠ 1) (h2 : x ≠ 2) : scopeOf x = none := by
  unfold scopeOf
  split
  · next h => exact absurd (BitVec.eq_of_toNat_eq h) h1
  · next h => exact absurd (BitVec.eq_of_toNat_eq h) h2
  · rfl

theorem scopeOf_eq_some {x : Byte} (h : x = 1 ∨ x = 2) :
    scopeOf x = some (if x = 1 then ResetScope.traffic else .full) := by
  rcases h with rfl | rfl <;> rfl

theorem State.lockRefuses_of_other {q : Station} (h : s.session.state ≠ .closed) (ho : s.session.owner ≠ some q) :
    s.lockRefuses q = true := by
  simp [State.lockRefuses, h, ho]

/-- Settles O50. -/
theorem resetNodeRecordsScope : Obligations.ResetNodeRecordsScope := by
  intro s e c rest scope h hargs hf
  have h0 : byteAt [scope] 0 = scope := rfl
  have fails : ∀ r, bodyResetNode { requester := e.requester, args := c.args, isLast := rest.isEmpty } s = .fail r →
      exec .resetNode s = .next (s.answerCmd e c rest r [] none) := fun r hr =>
    congrArg Host.Outcome.next (runCommand_fail_of_formed h hf (hasCode_of_formed hf) hr)
  refine ⟨fun hr ha hs hl => ?_, fun h1 h2 => fails _ ?_, fun hs hr => fails _ ?_, fun hs hr hc ho => fails _ ?_⟩
  · subst hr
    refine congrArg Host.Outcome.next (runCommand_pass h ha (hasCode_of_admits ha) ?_ (Nat.le_refl 0))
    unfold bodyResetNode Call.arg
    rw [hargs, h0, scopeOf_eq_some hs]
    dsimp only
    rw [hl]
    rfl
  · unfold bodyResetNode Call.arg
    rw [hargs, h0, scopeOf_eq_none h1 h2]
  · unfold bodyResetNode Call.arg
    rw [hargs, h0, scopeOf_eq_some hs]
    exact if_pos (by simpa using hr)
  · unfold bodyResetNode Call.arg
    rw [hargs, h0, scopeOf_eq_some hs]
    dsimp only
    rw [hr, State.lockRefuses_of_other hc ho]
    rfl

/-! ### Meters -/

theorem half_toNat (hi lo : Byte) : (half hi lo).toNat = 256 * hi.toNat + lo.toNat := by
  unfold half
  rw [BitVec.toNat_append, ← Nat.shiftLeft_add_eq_or_of_lt lo.isLt, Nat.shiftLeft_eq]
  omega

/-- Settles O33. -/
theorem meterTickAndWriteMeter : Obligations.MeterTickAndWriteMeter := by
  refine ⟨fun s hw => ⟨_, rfl, rfl, fun i hi => ?_, fun i hi => ?_, rfl⟩,
    fun s e c rest index control r1 r0 b1 b0 on act h hargs ha hi hc hl => ?_⟩
  · have ticked := Sparse.get_mapValues Meter.blank Meter.tick rfl s.meters ((Sparse.wf_iff _ _).mp hw).1 i
    refine ticked.trans ?_
    exact if_pos hi
  · have ticked := Sparse.get_mapValues Meter.blank Meter.tick rfl s.meters ((Sparse.wf_iff _ _).mp hw).1 i
    refine ticked.trans ?_
    exact if_neg (by rw [show (Sparse.get Meter.blank s.meters i).enabled = false from hi]; decide)
  · refine ⟨s.setMeter index.toNat { enabled := on, rate := (half r1 r0).toNat, burst := (half b1 b0).toNat
                                     level := (half b1 b0).toNat, action := act, exceed := 0 },
      congrArg Host.Outcome.next (runCommand_pass h ha (hasCode_of_admits ha) ?_ (Nat.le_refl 0)), rfl, ?_, fun i hne => ?_⟩
    · have h0 : byteAt [index, control, r1, r0, b1, b0] 0 = index := rfl
      have h1 : byteAt [index, control, r1, r0, b1, b0] 1 = control := rfl
      unfold bodyWriteMeter Call.arg
      rw [hargs, h0, h1, if_neg (by omega), hc]
      dsimp only
      rw [hl]
      rfl
    · simp [State.meter_setMeter, half_toNat]
    · simp [State.meter_setMeter, hne]

/-! ### Parameters -/

theorem policyCode_policyOf {v : Nat} (h : 1 ≤ v ∧ v ≤ 3) : policyCode (policyOf v) = v := by
  obtain ⟨h1, h3⟩ := h
  interval_cases v <;> rfl

/-- A parameter written with a valid value reads back as written: each arm of the table by itself. -/
theorem paramValue_setParam_same (q : Params) {n v : Nat} (h : paramValid n v = true) :
    paramValue (setParam q n v) n = some (BitVec.ofNat 16 v) := by
  unfold paramValid at h
  split at h
  case h_3 | h_4 => exact congrArg (fun x => some (BitVec.ofNat 16 x)) (policyCode_policyOf (of_decide_eq_true h))
  case h_16 | h_17 | h_18 =>
    have hv := of_decide_eq_true h
    interval_cases v <;> rfl
  case h_20 =>
    have hv := of_decide_eq_true h
    show some (((if v = 255 then none else some (BitVec.ofNat 8 v)).getD 255).setWidth 16) = _
    by_cases h255 : v = 255
    · rw [if_pos h255, h255]
      rfl
    · rw [if_neg h255]
      exact congrArg some (BitVec.eq_of_toNat_eq (by simp; omega))
  case h_22 => exact absurd h Bool.false_ne_true
  all_goals rfl

/-- A parameter written leaves every other as it is: the fields the two arms of the table name are different ones. -/
theorem paramValue_setParam_other (q : Params) {n m : Nat} (h : m ≠ n) (v : Nat) :
    paramValue (setParam q n v) m = paramValue q m := by
  unfold setParam
  split <;> unfold paramValue <;> split <;> first | rfl | exact absurd rfl h

/-- The checks of a WRITE_PARAM that every row shares pass (R156). -/
theorem writeChecked_eq (effect : State → Nat → Nat → State) {c : Call} {n hi lo : Byte} (hargs : c.args = [n, hi, lo])
    (h0 : n ≠ 0) (h21 : n.toNat ≤ 21) (hv : paramValid n.toNat (half hi lo).toNat = true)
    (hl : s.lockRefuses c.requester = false) :
    writeChecked effect c s = done (effect s n.toNat (half hi lo).toNat) := by
  have n0 := (Byte.ne_zero_iff n).mp h0
  have a0 : c.arg 0 = n := by rw [Call.arg, hargs]; rfl
  have a1 : halfAt c.args 1 = half hi lo := by rw [hargs]; rfl
  unfold writeChecked
  rw [a0, a1, if_neg (by omega), hv, hl]
  rfl

/-- Settles O45. -/
theorem writeParamTakesValue : Obligations.WriteParamTakesValue := by
  intro s e c rest n hi lo h hargs ha h0 h21 hv hl
  have code := hasCode_of_admits ha
  have named : byteAt c.args 0 = n := by rw [hargs]; rfl
  refine ⟨setParam s.params n.toNat (half hi lo).toNat, ?_, fun m hm => paramValue_setParam_other _ hm _,
    fun h17 h18 hmask => congrArg Host.Outcome.next
        (runCommand_pass h ha ?_ (writeChecked_eq _ hargs h0 h21 hv hl) (Nat.le_refl 0)),
    fun hmask => ?_⟩
  · rw [paramValue_setParam_same _ hv, BitVec.ofNat_toNat, BitVec.setWidth_eq]
  · rw [code, namesEnable, namesMask, named, beq_false_of_ne h17, beq_false_of_ne h18, beq_false_of_ne hmask]
    rfl
  · subst hmask
    refine congrArg Host.Outcome.next ((runCommand_pass h ha ?_ (writeChecked_eq _ hargs h0 h21 hv hl) (Nat.le_refl 0)).trans ?_)
    · rw [code, namesMask, named]
      rfl
    · refine congrArg (fun t => State.answerCmd t e c rest .ok [] none) ?_
      have mask : (setParam s.params (21 : Byte).toNat (half hi lo).toNat).attentionMask = half hi lo :=
        (BitVec.ofNat_toNat _ _).trans (BitVec.setWidth_eq _)
      unfold State.writeMask attentionOf selects State.writeParam
      dsimp only
      rw [mask]

end Sys2Proof.Machine

end

section
/-! Placements (R21, R64), the arbiter (R5), the winner of a lookup (R12) and the lookups without tables (R7 to R9). -/

namespace Sys2Proof.Machine

variable {s t u : State}

/-! ### One placement -/

theorem State.place_taken {q : Port} {c : TrafficClass} (h : s.canPlace q c = true) (r : Nat) :
    s.place q c r = s.enqueue q c r := if_pos h

theorem State.place_skipped {q : Port} {c : TrafficClass} (h : s.canPlace q c = false) (r : Nat) :
    s.place q c r = s.raiseSkip q := if_neg (by rw [h]; exact Bool.false_ne_true)

/-- What an enqueue changes: one queue, and the record's state and references. -/
theorem State.enqueue_eq (s : State) (q : Port) (c : TrafficClass) (r : Nat) :
    s.enqueue q c r = (s.setQueues q ((s.queues q).push c r)).setRecord r
      { s.record r with state := .queued, refs := (s.record r).refs + 1 } := by
  cases q <;> rfl

/-- An enqueue keeps everything but the queues of its port and the frame records. -/
theorem State.enqueue_frame (s : State) (q : Port) (c : TrafficClass) (r : Nat) :
    s.enqueue q c r = { s with
      trunkA := { s.trunkA with queues := (s.enqueue q c r).trunkA.queues }
      trunkB := { s.trunkB with queues := (s.enqueue q c r).trunkB.queues }
      loc := { s.loc with queues := (s.enqueue q c r).loc.queues }
      store := { s.store with recs := (s.enqueue q c r).store.recs } } := by
  cases q <;> rfl

@[simp] theorem State.record_enqueue_same (s : State) (q : Port) (c : TrafficClass) (r : Nat) :
    (s.enqueue q c r).record r = { s.record r with state := .queued, refs := (s.record r).refs + 1 } := by
  rw [State.enqueue_eq, State.record_setRecord_same]

theorem State.queues_enqueue (s : State) (q y : Port) (c : TrafficClass) (r : Nat) :
    (s.enqueue q c r).queues y = if y = q then (s.queues q).push c r else s.queues y := by
  rw [State.enqueue_eq, State.queues_setRecord, State.queues_setQueues]

theorem QueueSet.holds_iff (x : QueueSet) (r : Nat) : x.holds r = true ↔ ∃ c, r ∈ x.get c := by
  constructor
  · intro h
    simp only [QueueSet.holds, Bool.or_eq_true, List.contains_iff_mem] at h
    rcases h with ((h | h) | h) | h
    · exact ⟨0, h⟩
    · exact ⟨1, h⟩
    · exact ⟨2, h⟩
    · exact ⟨3, h⟩
  · rintro ⟨c, h⟩
    simp only [QueueSet.holds, Bool.or_eq_true, List.contains_iff_mem]
    rcases class_cases c with rfl | rfl | rfl | rfl
    · exact .inl (.inl (.inl h))
    · exact .inl (.inl (.inr h))
    · exact .inl (.inr h)
    · exact .inr h

@[simp] theorem QueueSet.holds_push (x : QueueSet) (c : TrafficClass) (r : Nat) : (x.push c r).holds r = true :=
  (QueueSet.holds_iff _ r).mpr ⟨c, by simp⟩

theorem State.isQueued_iff (s : State) (r : Nat) : s.isQueued r = true ↔ ∃ q, (s.queues q).holds r = true := by
  unfold State.isQueued
  simp only [Bool.or_eq_true]
  constructor
  · rintro ((h | h) | h)
    · exact ⟨.a, h⟩
    · exact ⟨.b, h⟩
    · exact ⟨.l, h⟩
  · rintro ⟨q, h⟩
    cases q
    · exact .inl (.inl h)
    · exact .inl (.inr h)
    · exact .inr h

theorem State.isQueued_enqueue (s : State) (q : Port) (c : TrafficClass) (r : Nat) : (s.enqueue q c r).isQueued r = true :=
  (State.isQueued_iff _ r).mpr ⟨q, by rw [State.queues_enqueue, if_pos rfl, QueueSet.holds_push]⟩

theorem State.flushing_portOf (s : State) (p : TrunkPort) :
    s.flushing (portOf p) = (decide (s.params.linkDownPolicy = .flush) && !(s.trunk p).link.up) := by cases p <;> rfl

/-- A port takes a delivery where its queue of the class has room and, for a trunk port, its link does not flush (R21). -/
theorem State.canPlace_iff (s : State) (q : Port) (c : TrafficClass) :
    s.canPlace q c = true ↔ ((s.queues q).get c).length < s.depth q ∧
      ∀ p, q = portOf p → (s.trunk p).link.up = true ∨ s.params.linkDownPolicy = .keep := by
  have policy : ¬ s.params.linkDownPolicy = .flush ↔ s.params.linkDownPolicy = .keep := by
    cases s.params.linkDownPolicy <;> decide
  have flush : s.flushing q = false ↔ ∀ p, q = portOf p → (s.trunk p).link.up = true ∨ s.params.linkDownPolicy = .keep := by
    have port : ∀ p, s.flushing (portOf p) = false ↔ (s.trunk p).link.up = true ∨ s.params.linkDownPolicy = .keep := fun p => by
      rw [State.flushing_portOf, ← policy]
      cases (s.trunk p).link.up <;> simp
    constructor
    · rintro h p rfl
      exact (port p).mp h
    · intro h
      cases q with
      | a => exact (port .a).mpr (h .a rfl)
      | b => exact (port .b).mpr (h .b rfl)
      | l => rfl
  rw [State.canPlace, Bool.and_eq_true, decide_eq_true_iff, Bool.not_eq_true', flush]

theorem State.raiseSkip_portOf (s : State) (p : TrunkPort) : s.raiseSkip (portOf p) = s.setTrunk p { s.trunk p with
    stats := { (s.trunk p).stats with queueFullSkips := satInc (s.trunk p).stats.queueFullSkips } } := by cases p <;> rfl

/-- Settles O59. -/
theorem placementsAndInternalRoute : Obligations.PlacementsAndInternalRoute := by
  refine ⟨fun s q c r depth open_ hd ho => ?_, fun s dest r target h => ?_⟩
  · have can : s.canPlace q c = true ↔ open_ := by
      rw [ho, State.canPlace_iff, hd]
      cases q <;> rfl
    refine ⟨can, fun h => ⟨_, rfl, ?_⟩, fun h => ?_⟩
    · rw [State.place_taken (can.mpr h)]
      refine ⟨by rw [State.queues_enqueue, if_pos rfl], fun y hy => by rw [State.queues_enqueue, if_neg hy],
        State.record_enqueue_same s q c r, fun n hn => State.record_enqueue hn s q c, fun p => ?_, ?_⟩
      · rw [State.enqueue_frame]
        cases p <;> exact ⟨rfl, rfl, rfl⟩
      · rw [State.enqueue_frame]
        exact ⟨rfl, rfl, rfl, rfl, rfl⟩
    · have skip : s.canPlace q c = false := by
        rw [← Bool.not_eq_true, can]; exact h
      refine ⟨fun p hp => ?_, fun hq => ?_⟩
      · rw [State.place_skipped skip, hp, State.raiseSkip_portOf]
      · rw [State.place_skipped skip, hq]
        rfl
  · have route : s.routeByDest dest = target := by
      unfold State.routeByDest
      rcases h with ⟨own, up, hn, hc⟩ | ⟨hn, hc⟩ <;> rw [hn] <;> dsimp only
      · rcases hc with ⟨hd, rfl⟩ | ⟨hd, rfl⟩ | ⟨hd, h255, rfl⟩
        · exact if_pos (by simpa using hd)
        · have ne : ¬ (dest = own ∨ dest = 255) := by
            rintro (rfl | rfl)
            · exact Nat.lt_irrefl _ hd
            · have := own.isLt
              have h255 : (255 : Station).toNat = 255 := rfl
              omega
          rw [if_neg (by simpa using ne), if_pos hd]
        · have ne : ¬ (dest = own ∨ dest = 255) := by
            rintro (rfl | h)
            · exact Nat.lt_irrefl _ hd
            · exact h255 h
          rw [if_neg (by simpa using ne), if_neg (by omega)]
      · rcases hc with ⟨hd, rfl⟩ | ⟨hd, rfl⟩
        · exact if_pos hd
        · exact if_neg hd
    refine ⟨route, ?_⟩
    cases target with
    | none => simp only [State.placeByDest, route]
    | some q => simp only [State.placeByDest, route]

/-! ### The winner (R12) -/

/-- Among the first `n` entries: no entry holds and there is no winner yet, or the best one is the winner so far. -/
def Bank.bestOf (b : Bank) (holds : Nat → Prop) (n : Nat) (w : Option SteerEntry) : Prop :=
  (w = none ∧ ∀ i, i < n → ¬ holds i) ∨ ∃ i, i < n ∧ holds i ∧ w = some (b.entry i) ∧
    ∀ j, j < n → holds j → (b.entry j).priority < (b.entry i).priority ∨ (b.entry j).priority = (b.entry i).priority ∧ i ≤ j

/-- A further entry that does not hold changes nothing; one that holds joins by the rule of R12. -/
theorem Bank.bestOf_succ {b : Bank} {holds : Nat → Prop} {n : Nat} {w : Option SteerEntry} (h : b.bestOf holds n w) :
    (¬ holds n → b.bestOf holds (n + 1) w) ∧ (holds n → b.bestOf holds (n + 1) (betterEntry w (b.entry n))) := by
  refine ⟨fun hn => ?_, fun hn => .inr ?_⟩
  · rcases h with ⟨rfl, hi⟩ | ⟨i, hi, hp, rfl, hb⟩
    · refine .inl ⟨rfl, fun i hlt => ?_⟩
      rcases Nat.lt_succ_iff_lt_or_eq.mp hlt with h | rfl
      · exact hi i h
      · exact hn
    · refine .inr ⟨i, Nat.lt_succ_of_lt hi, hp, rfl, fun j hlt hj => ?_⟩
      rcases Nat.lt_succ_iff_lt_or_eq.mp hlt with h | rfl
      · exact hb j h hj
      · exact absurd hj hn
  · rcases h with ⟨rfl, hi⟩ | ⟨i, hi, hp, rfl, hb⟩
    · refine ⟨n, Nat.lt_succ_self n, hn, rfl, fun j hlt hj => ?_⟩
      rcases Nat.lt_succ_iff_lt_or_eq.mp hlt with h | rfl
      · exact absurd hj (hi j h)
      · exact .inr ⟨rfl, Nat.le_refl _⟩
    · by_cases hlt : (b.entry i).priority < (b.entry n).priority
      · refine ⟨n, Nat.lt_succ_self n, hn, if_pos hlt, fun j hj hjh => ?_⟩
        rcases Nat.lt_succ_iff_lt_or_eq.mp hj with h | rfl
        · rcases hb j h hjh with hb | ⟨hb, -⟩
          · exact .inl (BitVec.lt_trans hb hlt)
          · exact .inl (hb ▸ hlt)
        · exact .inr ⟨rfl, Nat.le_refl _⟩
      · refine ⟨i, Nat.lt_succ_of_lt hi, hp, if_neg hlt, fun j hj hjh => ?_⟩
        rcases Nat.lt_succ_iff_lt_or_eq.mp hj with h | rfl
        · exact hb j h hjh
        · rcases Nat.lt_or_eq_of_le (BitVec.le_def.mp (BitVec.not_lt.mp hlt)) with h | h
          · exact .inl (BitVec.lt_def.mpr h)
          · exact .inr ⟨BitVec.eq_of_toNat_eq h, Nat.le_of_lt hi⟩

theorem Bank.bestOf_winner (b : Bank) (q : Port) (up : TrunkPort) (k : FrameKind) (h : Header) :
    b.bestOf (fun i => (b.entry i).holdsFor q up k h) 256 (b.winner q up k h) := by
  have upTo : ∀ n, b.bestOf (fun i => (b.entry i).holdsFor q up k h) n ((List.range n).foldl
      (fun best i => if (b.entry i).matches q up k h then betterEntry best (b.entry i) else best) none) := by
    intro n
    induction n with
    | zero => exact .inl ⟨rfl, fun i hi => absurd hi (Nat.not_lt_zero i)⟩
    | succ n ih =>
      rw [List.range_succ, List.foldl_append, List.foldl_cons, List.foldl_nil]
      split
      · next hm => exact (Bank.bestOf_succ ih).2 ((SteerEntry.matches_iff ..).mp hm)
      · next hm => exact (Bank.bestOf_succ ih).1 (fun hh => hm ((SteerEntry.matches_iff ..).mpr hh))
  exact upTo 256

/-- Settles O24. -/
theorem winnerIsBestMatch : Obligations.WinnerIsBestMatch := by
  intro b q up k h
  have best := b.bestOf_winner q up k h
  refine ⟨⟨fun hw => ?_, fun hn => ?_⟩, fun i hi hp hb => ?_⟩
  · rcases best with ⟨-, hi⟩ | ⟨i, -, -, he, -⟩
    · exact hi
    · exact absurd (he.symm.trans hw) (Option.some_ne_none _)
  · rcases best with ⟨hw, -⟩ | ⟨i, hi, hp, -, -⟩
    · exact hw
    · exact absurd hp (hn i hi)
  · rcases best with ⟨-, hn⟩ | ⟨j, hj, hpj, hw, hbj⟩
    · exact absurd hp (hn i hi)
    · have same : i = j := by
        rcases hb j hj hpj with h1 | ⟨h1, h2⟩
        · rcases hbj i hi hp with h3 | ⟨h3, -⟩
          · exact absurd h3 (BitVec.lt_asymm h1)
          · exact absurd (h3 ▸ h1) (BitVec.lt_irrefl _)
        · rcases hbj i hi hp with h3 | ⟨-, h4⟩
          · exact absurd (h1 ▸ h3) (BitVec.lt_irrefl _)
          · exact Nat.le_antisymm h2 h4
      rw [hw, same]

/-! ### The arbiter (R5) -/

theorem State.arbitrate_eq (s : State) :
    s.arbitrate = (servingOrder s.steer.lastServed).find? (fun x => !(s.backlog x).isEmpty) := by
  unfold State.arbitrate
  cases s.steer.lastServed <;>
    simp only [nextSource, servingOrder, List.find?_cons, List.find?_nil] <;> grind

/-- The state with the head of a backlog taken off it, `rest` left behind. -/
def State.picked (s : State) (q : Port) (rest : List Nat) : State :=
  { s.setBacklog q rest with steer := { (s.setBacklog q rest).steer with lastServed := q } }

/-- A head taken off its backlog changes the steering unit's backlogs and nothing else. -/
theorem State.picked_eq (s : State) (q : Port) (rest : List Nat) :
    s.picked q rest = { s with steer := (s.picked q rest).steer } := by cases q <;> rfl

theorem State.activeBank_picked (s : State) (q : Port) (rest : List Nat) :
    (s.picked q rest).activeBank = s.activeBank := by cases q <;> rfl

/-- LOOKUP steers the head of the backlog whose turn it is. -/
theorem exec_lookup {q : Port} {r : Nat} {rest : List Nat} (h : s.nextLookup q r rest) :
    exec .lookup s = .next ((s.picked q rest).steerFrame r q) := by
  obtain ⟨hf, hb⟩ := h
  refine congrArg Host.Outcome.next ?_
  unfold State.lookup
  rw [State.arbitrate_eq, hf]
  dsimp only
  rw [hb]
  rfl

/-- Settles O22. -/
theorem lookupServesBacklogsInTurn : Obligations.LookupServesBacklogsInTurn := by
  refine fun s => ⟨fun q r rest h => ⟨_, exec_lookup h, ?_⟩, fun ha hb hl => congrArg Host.Outcome.next ?_⟩
  · have work := Work.steerFrame (s.picked q rest) r q
    have base := s.picked_eq q rest
    exact ⟨work.same .steer (by simp), (work.same .numbering (by simp)).trans ((congrArg State.numbering base).trans rfl),
      (work.same .session (by simp)).trans ((congrArg State.session base).trans rfl),
      (work.same .params (by simp)).trans ((congrArg State.params base).trans rfl)⟩
  · have none : s.arbitrate = none := by
      rw [State.arbitrate_eq, List.find?_eq_none]
      intro x _
      cases x
      · simp [State.backlog, ha]
      · simp [State.backlog, hb]
      · simp [State.backlog, hl]
    unfold State.lookup
    rw [none]

/-! ### The steering of a frame by its kind (R6 to R9) -/

theorem FrameKind.not_numbering {k : FrameKind} (h : k.ordinary = true) : ¬ (k = .enum ∨ k = .enumEnd) := by
  rintro (rfl | rfl) <;> exact absurd h Bool.false_ne_true

theorem trunkOf_portOf (p : TrunkPort) : trunkOf (portOf p) = some p := by cases p <;> rfl

theorem State.steerFrame_numbering {r : Nat} {k : FrameKind} (hk : kindOf (s.header r).kind = some k)
    (h : k = .enum ∨ k = .enumEnd) (p : TrunkPort) :
    s.steerFrame r (portOf p) = s.steerNumbering r p k (s.header r) := by
  unfold State.steerFrame
  dsimp only
  rw [hk]
  dsimp only
  rw [if_pos h, trunkOf_portOf]

theorem State.steerFrame_invalid {r : Nat} {k : FrameKind} (hk : kindOf (s.header r).kind = some k) (h : k.ordinary = true)
    (hs : (s.header r).source = 255) (p : TrunkPort) :
    s.steerFrame r (portOf p) = (s.raiseTrunk p .sourceInvalid).finishPlacement r := by
  unfold State.steerFrame
  dsimp only
  rw [hk]
  dsimp only
  rw [if_neg (FrameKind.not_numbering h), trunkOf_portOf, hs]
  rfl

/-- An ordinary frame that is not discarded for its Source is steered by the node's number (R8, R9). -/
theorem State.steerFrame_ordinary {r : Nat} {k : FrameKind} {q : Port} (hk : kindOf (s.header r).kind = some k)
    (h : k.ordinary = true) (hs : q = .l ∨ (s.header r).source ≠ 255) :
    (s.numbering = .unnumbered → s.steerFrame r q = s.carryThrough r q k (s.header r)) ∧
      ∀ own up, s.numbering = .numbered own up → s.steerFrame r q = s.steerByTables r q k (s.header r) own up := by
  have source : q = .l ∨ ((s.header r).source == 255) = false := hs.imp id beq_false_of_ne
  refine ⟨fun hn => ?_, fun own up hn => ?_⟩ <;>
  · unfold State.steerFrame
    dsimp only
    rw [hk]
    dsimp only
    rw [if_neg (FrameKind.not_numbering h), hn]
    rcases source with rfl | source
    · rfl
    · rw [source]
      cases q <;> rfl

theorem State.finishPlacement_held {r : Nat} (h : (s.record r).refs ≠ 0) :
    s.finishPlacement r = s.setRecord r { s.record r with state := if s.isQueued r then .queued else .waiting } := if_neg h

theorem State.finishPlacement_unheld {r : Nat} (h : (s.record r).refs = 0) : s.finishPlacement r = s.release r := if_pos h

@[simp] theorem State.isQueued_setRecord (r x : Nat) (f : FrameRecord) : (s.setRecord r f).isQueued x = s.isQueued x := by
  simp [State.isQueued]

/-- A frame placed in one queue and nowhere else: the entry, the reference, and the record QUEUED. -/
theorem State.finishPlacement_enqueue (q : Port) (c : TrafficClass) {r : Nat} (h : (s.record r).refs = 0) :
    ((s.enqueue q c r).finishPlacement r).queues q = (s.queues q).push c r ∧
      ((s.enqueue q c r).finishPlacement r).record r = { s.record r with refs := 1, state := .queued } ∧
      (s.enqueue q c r).finishPlacement r = { s with
        trunkA := { s.trunkA with queues := (s.enqueue q c r).trunkA.queues }
        trunkB := { s.trunkB with queues := (s.enqueue q c r).trunkB.queues }
        loc := { s.loc with queues := (s.enqueue q c r).loc.queues }
        store := { s.store with recs := ((s.enqueue q c r).finishPlacement r).store.recs } } := by
  rw [State.finishPlacement_held (by simp), State.isQueued_enqueue, if_pos rfl]
  refine ⟨?_, ?_, ?_⟩
  · rw [State.queues_setRecord, State.queues_enqueue, if_pos rfl]
  · rw [State.record_setRecord_same, State.record_enqueue_same, h]
  · conv_lhs => rw [State.enqueue_frame]
    cases q <;> rfl

/-- A frame placed nowhere, because its one queue took no delivery: the skip is counted and the record given back (R22). -/
theorem State.finishPlacement_skip {q : Port} {c : TrafficClass} {r : Nat} (hc : s.canPlace q c = false)
    (h : (s.record r).refs = 0) (hr : s.roomy) :
    (s.raiseSkip q).gaveBack (some r) ((s.place q c r).finishPlacement r) := by
  rw [State.place_skipped hc, State.finishPlacement_unheld (by cases q <;> exact h)]
  exact (State.release_gaveBack (by cases q <;> exact hr) r).1

/-- LOOKUP is the steering of the head on a state that differs in the steering unit's backlogs alone. -/
theorem exec_lookup_steered {q : Port} {r : Nat} {rest : List Nat} (h : s.nextLookup q r rest) :
    ∃ x : Steering, exec .lookup s = .next (State.steerFrame { s with steer := x } r q) ∧
      State.activeBank { s with steer := x } = s.activeBank := by
  have base := s.picked_eq q rest
  refine ⟨(s.picked q rest).steer, ?_, ?_⟩
  · rw [exec_lookup h, ← base]
  · rw [← base, State.activeBank_picked]

end Sys2Proof.Machine

end

section
/-! Lookups that do not use the tables (R7 to R9). -/

namespace Sys2Proof.Machine

variable {s t u : State}

theorem State.carryThrough_trunk (s : State) (r : Nat) (p : TrunkPort) (k : FrameKind) (h : Header) :
    s.carryThrough r (portOf p) k h = (s.place (portOf (otherPort p)) h.cls r).finishPlacement r := by
  unfold State.carryThrough
  rw [trunkOf_portOf]

/-- What the placement of a frame at a trunk port leaves as it is, whether it was taken or skipped. -/
structure PlacedAtTrunk (s t : State) : Prop where
  mgmt : t.mgmt = s.mgmt
  enums : t.enums = s.enums
  meters : t.meters = s.meters
  counters : t.counters = s.counters
  events : t.events = s.events
  mem : t.store.mem = s.store.mem

/-- A frame placed at a trunk port alone. -/
theorem State.placed_at_trunk (s : State) (p : TrunkPort) (c : TrafficClass) {r : Nat}
    (hc : s.canPlace (portOf p) c = true) (h : (s.record r).refs = 0) :
    ((s.place (portOf p) c r).finishPlacement r).queues (portOf p) = (s.queues (portOf p)).push c r ∧
      ((s.place (portOf p) c r).finishPlacement r).record r = { s.record r with refs := 1, state := .queued } ∧
      ((s.place (portOf p) c r).finishPlacement r).trunk (otherPort p) = s.trunk (otherPort p) ∧
      ((s.place (portOf p) c r).finishPlacement r).loc = s.loc ∧
      PlacedAtTrunk s ((s.place (portOf p) c r).finishPlacement r) := by
  rw [State.place_taken hc]
  obtain ⟨hq, hr, he⟩ := State.finishPlacement_enqueue (s := s) (portOf p) c h
  refine ⟨hq, hr, ?_⟩
  rw [he]
  cases p <;> exact ⟨rfl, rfl, rfl, rfl, rfl, rfl, rfl, rfl⟩

/-- A frame skipped at the one trunk port it was for: the skip counted, the record given back. -/
theorem State.skipped_at_trunk (s : State) (p : TrunkPort) (c : TrafficClass) {r : Nat}
    (hc : s.canPlace (portOf p) c = false) (h : (s.record r).refs = 0) (hr : s.roomy) :
    (∀ y, ((s.place (portOf p) c r).finishPlacement r).queues y = s.queues y) ∧
      ((s.place (portOf p) c r).finishPlacement r).trunk (otherPort p) = s.trunk (otherPort p) ∧
      ((s.place (portOf p) c r).finishPlacement r).trunk p = { s.trunk p with
        stats := { (s.trunk p).stats with queueFullSkips := satInc (s.trunk p).stats.queueFullSkips } } ∧
      ((s.place (portOf p) c r).finishPlacement r).store.freeRecs = s.store.freeRecs ++ [r] ∧
      ((s.place (portOf p) c r).finishPlacement r).store.freePages = s.store.freePages ++ (s.record r).pages ∧
      PlacedAtTrunk s ((s.place (portOf p) c r).finishPlacement r) := by
  obtain ⟨e, -⟩ := State.finishPlacement_skip hc h hr
  rw [e]
  refine ⟨fun y => ?_, ?_⟩
  · cases p <;> cases y <;> rfl
  · cases p <;> exact ⟨rfl, rfl, rfl, rfl, ⟨rfl, rfl, rfl, rfl, rfl, rfl⟩⟩

theorem State.steerNumbering_enumEnd (s : State) (r : Nat) (p : TrunkPort) (h : Header) :
    s.steerNumbering r p .enumEnd h = (s.place (portOf (otherPort p)) h.cls r).finishPlacement r := rfl

theorem State.placeRequest_taken (h : s.mgmt.queue.length < 4) (r : Nat) (q : Station) :
    s.placeRequest r q = State.setRecord
      { s with mgmt := { s.mgmt with queue := s.mgmt.queue ++ [{ frame := r, requester := q }] } } r
      { s.record r with refs := (s.record r).refs + 1 } := if_pos h

theorem State.placeRequest_refused (h : 4 ≤ s.mgmt.queue.length) (r : Nat) (q : Station) :
    s.placeRequest r q = s.raiseMgmt .requestsRefused := if_neg (Nat.not_lt.mpr h)

theorem State.steerFrame_invalid_gaveBack {r : Nat} {k : FrameKind} {p : TrunkPort}
    (hk : kindOf (s.header r).kind = some k) (ho : k.ordinary = true) (hs : (s.header r).source = 255)
    (h0 : (s.record r).refs = 0) (hr : s.roomy) :
    (s.raiseTrunk p .sourceInvalid).gaveBack (some r) (s.steerFrame r (portOf p)) := by
  rw [State.steerFrame_invalid hk ho hs p, State.finishPlacement_unheld (by cases p <;> exact h0)]
  exact (State.release_gaveBack (by cases p <;> exact hr) r).1

/-- A frame with one reference, in no queue: what the end of its placement makes of its record (R22). -/
theorem State.finishPlacement_waiting {r : Nat} {f : FrameRecord} (hr : s.record r = { f with refs := 1 })
    (hq : s.isQueued r = false) :
    s.finishPlacement r = s.setRecord r { f with refs := 1, state := .waiting } := by
  rw [State.finishPlacement_held (by rw [hr]; exact one_ne_zero), hr, hq]
  rfl

theorem State.steerFrame_enum {r : Nat} {p : TrunkPort} (hk : kindOf (s.header r).kind = some .enum)
    (h0 : (s.record r).refs = 0) (hq : s.isQueued r = false) :
    s.steerFrame r (portOf p) = (s.placeEnum r).setRecord r { s.record r with refs := 1, state := .waiting } := by
  rw [State.steerFrame_numbering hk (.inl rfl) p]
  refine State.finishPlacement_waiting ?_ ?_
  · rw [if_pos rfl, State.placeEnum, State.record_setRecord_same]
    exact congrArg (fun n => { s.record r with refs := n + 1 }) h0
  · rw [if_pos rfl, State.placeEnum, State.isQueued_setRecord]
    exact hq

theorem State.steerFrame_enumEnd {r : Nat} {p : TrunkPort} (hk : kindOf (s.header r).kind = some .enumEnd) :
    s.steerFrame r (portOf p) = (s.place (portOf (otherPort p)) (s.header r).cls r).finishPlacement r :=
  State.steerFrame_numbering hk (.inr rfl) p

theorem State.steerFrame_carried {r : Nat} {k : FrameKind} {p : TrunkPort} (hk : kindOf (s.header r).kind = some k)
    (ho : k.ordinary = true) (hs : (s.header r).source ≠ 255) (hn : s.numbering = .unnumbered) :
    s.steerFrame r (portOf p) = (s.place (portOf (otherPort p)) (s.header r).cls r).finishPlacement r :=
  ((State.steerFrame_ordinary hk ho (.inr hs)).1 hn).trans (State.carryThrough_trunk s r p k _)

theorem State.steerFrame_localRequest {r : Nat} (hk : kindOf (s.header r).kind = some .mreq)
    (hn : s.numbering = .unnumbered) :
    s.steerFrame r .l = (s.placeRequest r (s.header r).source).finishPlacement r :=
  (State.steerFrame_ordinary hk rfl (.inl rfl)).1 hn

theorem State.steerFrame_request_taken {r : Nat} (hk : kindOf (s.header r).kind = some .mreq)
    (hn : s.numbering = .unnumbered) (h0 : (s.record r).refs = 0) (hl : s.mgmt.queue.length < 4)
    (hq : s.isQueued r = false) :
    s.steerFrame r .l = (s.placeRequest r (s.header r).source).setRecord r
      { s.record r with refs := 1, state := .waiting } := by
  rw [State.steerFrame_localRequest hk hn]
  refine State.finishPlacement_waiting ?_ ?_
  · rw [State.placeRequest_taken hl, State.record_setRecord_same]
    exact congrArg (fun n => { s.record r with refs := n + 1 }) h0
  · rw [State.placeRequest_taken hl, State.isQueued_setRecord]
    exact hq

theorem State.steerFrame_request_refused {r : Nat} (hk : kindOf (s.header r).kind = some .mreq)
    (hn : s.numbering = .unnumbered) (h0 : (s.record r).refs = 0) (hl : 4 ≤ s.mgmt.queue.length) (hr : s.roomy) :
    (s.raiseMgmt .requestsRefused).gaveBack (some r) (s.steerFrame r .l) := by
  rw [State.steerFrame_localRequest hk hn, State.placeRequest_refused hl, State.finishPlacement_unheld (by exact h0)]
  exact (State.release_gaveBack (s := s.raiseMgmt .requestsRefused) hr r).1

/-- Settles O23. -/
theorem lookupWithoutTables : Obligations.LookupWithoutTables := by
  refine ⟨fun s p r rest k h hk ho hs h0 hr => ?_, fun s p r rest h hk h0 hq => ?_, fun s p r rest k h hk ho hs hn h0 => ?_,
    fun s p r rest c h hk h0 hc => ?_, fun s r rest h hk hn h0 => ?_⟩ <;>
    obtain ⟨x, ex, -⟩ := exec_lookup_steered h
  · obtain ⟨e, -⟩ := State.steerFrame_invalid_gaveBack (s := { s with steer := x }) (p := p) hk ho hs h0 hr
    refine ⟨_, ex, ?_⟩
    rw [e]
    cases p <;> exact ⟨rfl, rfl, rfl, rfl, rfl, rfl, rfl, rfl, rfl, rfl⟩
  · refine ⟨_, ex, ?_⟩
    rw [State.steerFrame_enum (s := { s with steer := x }) hk h0 hq]
    exact ⟨rfl, State.record_setRecord_same _ _ _, rfl, rfl, rfl, rfl, rfl, rfl, rfl, rfl⟩
  · refine ⟨fun hc => ⟨_, ex, ?_⟩, fun hc hr => ⟨_, ex, ?_⟩⟩ <;>
      rw [State.steerFrame_carried (s := { s with steer := x }) hk ho hs hn]
    · obtain ⟨hq, hrec, ht, hl, he⟩ := State.placed_at_trunk { s with steer := x } (otherPort p) (s.header r).cls hc h0
      rw [otherPort_otherPort] at ht
      exact ⟨hq, hrec, ht, hl, he.mgmt, he.meters, he.counters, he.mem⟩
    · obtain ⟨hq, ht, hs, hf, hp, he⟩ :=
        State.skipped_at_trunk { s with steer := x } (otherPort p) (s.header r).cls hc h0 hr
      rw [otherPort_otherPort] at ht
      exact ⟨hq, ht, hs, hf, hp, he.mgmt, he.enums, he.meters, he.counters, he.events, he.mem⟩
  · subst hc
    refine ⟨fun hc => ⟨_, ex, ?_⟩, fun hc hr => ⟨_, ex, ?_⟩⟩ <;>
      rw [State.steerFrame_enumEnd (s := { s with steer := x }) hk]
    · obtain ⟨hq, hrec, ht, hl, he⟩ := State.placed_at_trunk { s with steer := x } (otherPort p) (s.header r).cls hc h0
      rw [otherPort_otherPort] at ht
      exact ⟨hq, hrec, ht, hl, he.mgmt, he.enums, he.meters, he.counters, he.events, he.mem⟩
    · obtain ⟨hq, ht, hs, hf, hp, he⟩ :=
        State.skipped_at_trunk { s with steer := x } (otherPort p) (s.header r).cls hc h0 hr
      exact ⟨hq, congrArg (fun y => y.stats.queueFullSkips) hs, hf, he.mgmt, he.enums⟩
  · refine ⟨fun hl hq => ⟨_, ex, ?_⟩, fun hl hr => ⟨_, ex, ?_⟩⟩
    · rw [State.steerFrame_request_taken (s := { s with steer := x }) hk hn h0 hl hq,
        State.placeRequest_taken (s := { s with steer := x }) hl]
      exact ⟨rfl, State.record_setRecord_same _ _ _, rfl, rfl, rfl, rfl, rfl, rfl⟩
    · obtain ⟨e, -⟩ := State.steerFrame_request_refused (s := { s with steer := x }) hk hn h0 hl hr
      rw [e]
      exact ⟨rfl, rfl, fun y => by cases y <;> rfl⟩

end Sys2Proof.Machine

end

section
/-! Lookups by the tables (R13 to R22). -/

namespace Sys2Proof.Machine

variable {s t u : State}

/-! ### The header fields in their bytes (R99) -/

theorem extract_append_high {m n : Nat} (x : BitVec m) (y : BitVec n) : (x ++ y).extractLsb' n m = x := by
  refine BitVec.eq_of_getLsbD_eq fun i hi => ?_
  rw [BitVec.getLsbD_extractLsb', BitVec.getLsbD_append, if_neg (by omega), Nat.add_sub_cancel_left]
  simp [hi]

theorem extract_append_low {m n : Nat} (x : BitVec m) (y : BitVec n) : (x ++ y).extractLsb' 0 n = y := by
  refine BitVec.eq_of_getLsbD_eq fun i hi => ?_
  rw [BitVec.getLsbD_extractLsb', BitVec.getLsbD_append, Nat.zero_add, if_pos hi]
  simp [hi]

@[simp] theorem headerByte0_kind (h : Header) : (headerByte0 h).extractLsb' 4 4 = h.kind := by
  refine BitVec.eq_of_getLsbD_eq fun i hi => ?_
  unfold headerByte0
  rw [BitVec.getLsbD_extractLsb', BitVec.getLsbD_append, BitVec.getLsbD_append, if_neg (by omega), if_neg (by omega)]
  simp [hi, show 4 + i - 3 - 1 = i by omega]

@[simp] theorem headerByte0_mark (h : Header) : (headerByte0 h).getLsbD 3 = h.mark := by
  unfold headerByte0
  rw [BitVec.getLsbD_append, BitVec.getLsbD_append, if_neg (by omega), if_pos (by omega)]
  cases h.mark <;> rfl

@[simp] theorem headerByte0_seq (h : Header) : (headerByte0 h).extractLsb' 0 3 = h.seq := extract_append_low _ _

@[simp] theorem headerByte1_cls (h : Header) : (headerByte1 h).extractLsb' 6 2 = h.cls := extract_append_high _ _

@[simp] theorem headerByte1_channel (h : Header) : (headerByte1 h).extractLsb' 0 6 = h.channel := extract_append_low _ _

@[simp] theorem half_halves (x : Half) : half (x.extractLsb' 8 8) (x.extractLsb' 0 8) = x := by
  refine BitVec.eq_of_getLsbD_eq fun i hi => ?_
  unfold half
  rw [BitVec.getLsbD_append]
  split
  · next h => simp [h]
  · next h => simp [show i - 8 < 8 by omega, show 8 + (i - 8) = i by omega]

/-- The parsed header of ten bytes depends on the bytes alone. -/
theorem State.header_eq (s : State) (r : Nat) : s.header r =
    { kind := (s.frameByte r 0).extractLsb' 4 4, mark := (s.frameByte r 0).getLsbD 3, seq := (s.frameByte r 0).extractLsb' 0 3
      cls := (s.frameByte r 1).extractLsb' 6 2, channel := (s.frameByte r 1).extractLsb' 0 6, dest := s.frameByte r 2
      source := s.frameByte r 3, tag := half (s.frameByte r 4) (s.frameByte r 5)
      length := (s.frameByte r 6).extractLsb' 0 3 ++ s.frameByte r 7
      zeros := (s.frameByte r 6).extractLsb' 3 5 ++ s.frameByte r 8 } := rfl

theorem State.storeSteered_eq (s : State) (r : Nat) (h : Header) : s.storeSteered r h =
    (s.fill r 0 [headerByte0 h, headerByte1 h]).fill r 4 [h.tag.extractLsb' 8 8, h.tag.extractLsb' 0 8] := rfl

/-- The four header bytes a lookup stores, read back; every other byte of the first page stays. -/
theorem State.frameByte_storeSteered {r pg : Nat} {more : List Nat} (hp : (s.record r).pages = pg :: more)
    (hs : 10 ≤ (s.record r).size) (h : Header) (j : Nat) (hj : j < Config.pageSize) :
    (s.storeSteered r h).frameByte r j =
      if 4 ≤ j ∧ j < 6 then [h.tag.extractLsb' 8 8, h.tag.extractLsb' 0 8].getD (j - 4) 0
      else if 0 ≤ j ∧ j < 2 then [headerByte0 h, headerByte1 h].getD (j - 0) 0
      else s.frameByte r j := by
  have p64 : Config.pageSize = 64 := rfl
  have same := s.fill_record r [headerByte0 h, headerByte1 h] 0 r
  rw [State.storeSteered_eq, State.frameByte_fill _ r pg more (by rw [same, hp]) _ _ (by simp [p64])
    (by rw [same]; exact Nat.le_trans (by simp) hs) j hj,
    State.frameByte_fill _ r pg more hp _ _ (by simp [p64]) (Nat.le_trans (by simp) hs) j hj]
  rfl

theorem State.header_storeSteered {r pg : Nat} {more : List Nat} (hp : (s.record r).pages = pg :: more)
    (hs : 10 ≤ (s.record r).size) (h : Header) (hk : h.kind = (s.header r).kind) (hq : h.seq = (s.header r).seq) :
    (s.storeSteered r h).header r =
      { s.header r with tag := h.tag, channel := h.channel, cls := h.cls, mark := h.mark } := by
  have byte := fun j (hj : j < 10) =>
    State.frameByte_storeSteered hp hs h j (Nat.lt_trans hj (show 10 < Config.pageSize by decide))
  rw [State.header_eq, byte 0 (by decide), byte 1 (by decide), byte 2 (by decide), byte 3 (by decide), byte 4 (by decide),
    byte 5 (by decide), byte 6 (by decide), byte 7 (by decide), byte 8 (by decide)]
  simp [State.header_eq, hk, hq]
  exact headerByte0_mark h

theorem State.read_writeFrameByte_other {r i a : Nat} (h : (s.record r).addr i ≠ some a) (b : Byte) :
    Memory.read (s.writeFrameByte r i b).store.mem a = Memory.read s.store.mem a := by
  unfold State.writeFrameByte
  split
  · split
    · next x hx => exact Memory.read_write_other _ _ (fun e => h (e ▸ hx))
    · rfl
  · rfl

theorem State.read_storeSteered_other {r a : Nat} (h : ∀ i ∈ [0, 1, 4, 5], (s.record r).addr i ≠ some a) (x : Header) :
    Memory.read (s.storeSteered r x).store.mem a = Memory.read s.store.mem a := by
  unfold State.storeSteered
  rw [State.read_writeFrameByte_other (by simpa only [State.writeFrameByte_record] using h 5 (by decide)),
    State.read_writeFrameByte_other (by simpa only [State.writeFrameByte_record] using h 4 (by decide)),
    State.read_writeFrameByte_other (by simpa only [State.writeFrameByte_record] using h 1 (by decide)),
    State.read_writeFrameByte_other (h 0 (by decide))]

/-! ### The decision -/

theorem defaultDelivery_eq (k : FrameKind) (dest own : Station) : defaultDelivery k dest own = defaultWords k dest own := by
  unfold defaultDelivery defaultWords
  by_cases h : k = .mreq <;> simp [h, bne, Delivery.empty, beq_eq_decide]

theorem deliveryFor_of_decides {w : Option SteerEntry} {k : FrameKind} {h : Header} {own : Station} {d : Delivery}
    {c : TrafficClass} (hd : s.decides w k h own d c) :
    deliveryFor s.activeBank w k h own = d ∧ classFor s.activeBank w h = c := by
  cases w with
  | none =>
    obtain ⟨rfl, rfl⟩ := hd
    exact ⟨defaultDelivery_eq _ _ _, rfl⟩
  | some e =>
    unfold deliveryFor classFor mapDecision
    rcases hd with ⟨hb, rfl, rfl⟩ | ⟨hb, hf, rfl, rfl⟩ | ⟨hb, hf, rfl, rfl⟩
    · simp [hb]
    · simp only [hb, hf]
      cases hx : (s.activeBank.mapEntry h.channel.toNat).classOverride <;> simp [hx]
    · simp [hb, hf, defaultDelivery_eq]

theorem forwardsTo_eq (q : Port) (up : TrunkPort) (dest own : Station) (y : Port) :
    forwardsTo q up dest own y = (forwardPorts q up dest own).contains y := by
  unfold forwardsTo forwardPorts
  cases q with
  | a | b => cases y <;> rfl
  | l =>
    simp only [trunkOf]
    split
    · cases y <;> rfl
    · split
      · cases y <;> rfl
      · split <;> cases up <;> cases y <;> rfl

/-- Whether a set of targets holds a port. -/
def Targets.at (x : Targets) : Port → Bool
  | .a => x.a
  | .b => x.b
  | .l => x.l

theorem Targets.at_final (d : Delivery) (q : Port) (up : TrunkPort) (k : FrameKind) (dest own : Station) (prot dropped : Bool)
    (y : Port) : (finalTargets (resolve d q up k dest own) prot dropped).at y = (d.names q up dest own y && !dropped) := by
  cases dropped with
  | true => cases y <;> simp [finalTargets, Targets.at]
  | false =>
    have same : (q == y) = decide (y = q) := by cases q <;> cases y <;> rfl
    unfold Delivery.names finalTargets resolve
    rw [← same]
    cases y <;> simp [Targets.at, forwardsTo_eq]

theorem Targets.m_final (d : Delivery) (q : Port) (up : TrunkPort) (k : FrameKind) (h : Header) (own : Station)
    (dropped : Bool) :
    (finalTargets (resolve d q up k h.dest own) (isProtected k h own) dropped).m = d.namesMgmt k h own dropped := by
  unfold Delivery.namesMgmt isProtected finalTargets resolve
  cases dropped <;> cases decide (k = .mreq) <;> simp

theorem Meter.charge_disabled {m : Meter} (h : m.enabled = false) (n : Nat) : m.charge n = (m, none) :=
  if_pos (by rw [h]; rfl)

theorem Meter.charge_conforms {m : Meter} (h : m.enabled = true) {n : Nat} (hn : n ≤ m.level) :
    m.charge n = ({ m with level := m.level - n }, none) :=
  (if_neg (by rw [h]; decide)).trans (if_pos hn)

theorem Meter.charge_exceeds {m : Meter} (h : m.enabled = true) {n : Nat} (hn : m.level < n) :
    m.charge n = ({ m with exceed := satInc m.exceed }, some m.action) :=
  (if_neg (by rw [h]; decide)).trans (if_neg (Nat.not_le.mpr hn))

theorem State.chargeMeter_snd (s : State) (w : Option SteerEntry) (size : Nat) :
    (s.chargeMeter w size).2 = s.exceeds w size := by
  unfold State.chargeMeter State.exceeds
  cases w.bind SteerEntry.meter with
  | none => rfl
  | some i =>
    dsimp only
    cases he : (s.meter i.toNat).enabled with
    | false =>
      rw [Meter.charge_disabled he, if_neg (fun h => absurd h.1 Bool.false_ne_true)]
    | true =>
      by_cases hl : size ≤ (s.meter i.toNat).level
      · rw [Meter.charge_conforms he hl, if_neg (fun h => absurd h.2 (Nat.not_lt.mpr hl))]
      · rw [Meter.charge_exceeds he (Nat.not_le.mp hl), if_pos ⟨rfl, Nat.not_le.mp hl⟩]

/-! ### The deliveries of a frame (R21, R22) -/

/-- One delivery, where the targets hold the port. -/
def State.placeIf (s : State) (b : Bool) (q : Port) (c : TrafficClass) (r : Nat) : State := if b then s.place q c r else s

theorem State.placeAll_eq (s : State) (x : Targets) (c : TrafficClass) (r : Nat) (q : Station) :
    s.placeAll x c r q =
      let v := ((s.placeIf x.a .a c r).placeIf x.b .b c r).placeIf x.l .l c r
      if x.m then v.placeRequest r q else v := rfl

/-- What deliveries of record `r` leave as it is: the pages and free lists, the other records, the record itself but for its
state and references, the management engine's other parts, the events. -/
structure Placing (r : Nat) (s t : State) : Prop where
  store : t.store = { s.store with recs := t.store.recs }
  own : t.record r = { s.record r with state := (t.record r).state, refs := (t.record r).refs }
  other : ∀ x, x ≠ r → t.record x = s.record x
  events : t.events = s.events
  numbering : t.numbering = s.numbering
  meters : t.meters = s.meters
  counters : t.counters = s.counters

theorem Placing.refl (r : Nat) (s : State) : Placing r s s := ⟨rfl, rfl, fun _ _ => rfl, rfl, rfl, rfl, rfl⟩

theorem Placing.trans {r : Nat} (h : Placing r s t) (g : Placing r t u) : Placing r s u where
  store := by rw [g.store, h.store]
  own := by rw [g.own, h.own]
  other x hx := (g.other x hx).trans (h.other x hx)
  events := g.events.trans h.events
  numbering := g.numbering.trans h.numbering
  meters := g.meters.trans h.meters
  counters := g.counters.trans h.counters

theorem Placing.enqueue (s : State) (q : Port) (c : TrafficClass) (r : Nat) : Placing r s (s.enqueue q c r) where
  store := by rw [State.enqueue_frame]
  own := by rw [State.record_enqueue_same]
  other x hx := State.record_enqueue hx s q c
  events := by rw [State.enqueue_frame]
  numbering := by rw [State.enqueue_frame]
  meters := by rw [State.enqueue_frame]
  counters := by rw [State.enqueue_frame]

theorem Placing.place (s : State) (q : Port) (c : TrafficClass) (r : Nat) : Placing r s (s.place q c r) := by
  cases hc : s.canPlace q c with
  | true => rw [State.place_taken hc]; exact .enqueue s q c r
  | false => rw [State.place_skipped hc]; cases q <;> exact ⟨rfl, rfl, fun _ _ => rfl, rfl, rfl, rfl, rfl⟩

theorem Placing.placeIf (s : State) (b : Bool) (q : Port) (c : TrafficClass) (r : Nat) : Placing r s (s.placeIf b q c r) := by
  cases b
  · exact .refl r s
  · exact .place s q c r

theorem Placing.placeRequest (s : State) (r : Nat) (q : Station) : Placing r s (s.placeRequest r q) := by
  by_cases h : s.mgmt.queue.length < 4
  · rw [State.placeRequest_taken h]
    exact ⟨rfl, by rw [State.record_setRecord_same], fun x hx => by rw [State.record_setRecord, if_neg hx]; rfl, rfl, rfl, rfl, rfl⟩
  · rw [State.placeRequest_refused (Nat.not_lt.mp h)]
    exact ⟨rfl, rfl, fun _ _ => rfl, rfl, rfl, rfl, rfl⟩

theorem Placing.placeAll (s : State) (x : Targets) (c : TrafficClass) (r : Nat) (q : Station) :
    Placing r s (s.placeAll x c r q) := by
  have ports := ((Placing.placeIf s x.a .a c r).trans (.placeIf _ x.b .b c r)).trans (.placeIf _ x.l .l c r)
  rw [State.placeAll_eq]
  cases x.m
  · exact ports
  · exact ports.trans (.placeRequest _ r q)

theorem State.queues_placeIf (s : State) (b : Bool) (q y : Port) (c : TrafficClass) (r : Nat) :
    (s.placeIf b q c r).queues y =
      if y = q ∧ (b && s.canPlace y c) = true then (s.queues y).push c r else s.queues y := by
  cases b with
  | false => rw [if_neg (by simp)]; rfl
  | true =>
    refine (State.place_queues s q y c r).trans ?_
    by_cases h : y = q
    · subst h; simp
    · rw [if_neg (fun k => h k.1), if_neg (fun k => h k.1)]

theorem State.canPlace_placeIf (s : State) {q y : Port} (h : y ≠ q) (b : Bool) (c d : TrafficClass) (r : Nat) :
    (s.placeIf b q c r).canPlace y d = s.canPlace y d := by
  cases b
  · rfl
  · exact State.canPlace_place s h c d r

theorem State.refs_placeIf (s : State) (b : Bool) (q : Port) (c : TrafficClass) (r : Nat) :
    ((s.placeIf b q c r).record r).refs = (s.record r).refs + if b && s.canPlace q c then 1 else 0 := by
  cases b with
  | false => rfl
  | true =>
    show ((s.place q c r).record r).refs = _
    cases hc : s.canPlace q c with
    | true => rw [State.place_taken hc, State.record_enqueue_same]; rfl
    | false => rw [State.place_skipped hc]; cases q <;> rfl

theorem State.placeIf_mgmt (s : State) (b : Bool) (q : Port) (c : TrafficClass) (r : Nat) :
    (s.placeIf b q c r).mgmt = s.mgmt := by
  cases b
  · rfl
  · exact State.place_mgmt ..

@[simp] theorem State.queues_placeRequest (s : State) (r : Nat) (q : Station) (y : Port) :
    (s.placeRequest r q).queues y = s.queues y := by
  unfold State.placeRequest
  split
  · rw [State.queues_setRecord]; cases y <;> rfl
  · cases y <;> rfl

theorem State.refs_placeRequest (s : State) (r : Nat) (q : Station) :
    ((s.placeRequest r q).record r).refs = (s.record r).refs + if s.mgmt.queue.length < 4 then 1 else 0 := by
  by_cases h : s.mgmt.queue.length < 4
  · rw [State.placeRequest_taken h, State.record_setRecord_same, if_pos h]
  · rw [State.placeRequest_refused (Nat.not_lt.mp h), if_neg h]; rfl

theorem State.queue_placeRequest (s : State) (r : Nat) (q : Station) :
    (s.placeRequest r q).mgmt.queue =
      if s.mgmt.queue.length < 4 then s.mgmt.queue ++ [{ frame := r, requester := q }] else s.mgmt.queue := by
  by_cases h : s.mgmt.queue.length < 4
  · rw [State.placeRequest_taken h, if_pos h]; rfl
  · rw [State.placeRequest_refused (Nat.not_lt.mp h), if_neg h]; rfl

/-- Every port of the targets that takes the frame has it at the tail of the class's queue (R21). -/
theorem State.queues_placeAll (s : State) (x : Targets) (c : TrafficClass) (r : Nat) (q : Station) (y : Port) :
    (s.placeAll x c r q).queues y = if x.at y && s.canPlace y c then (s.queues y).push c r else s.queues y := by
  have ports : (((s.placeIf x.a .a c r).placeIf x.b .b c r).placeIf x.l .l c r).queues y =
      if x.at y && s.canPlace y c then (s.queues y).push c r else s.queues y := by
    cases y <;> simp [State.queues_placeIf, State.canPlace_placeIf, Targets.at]
  rw [State.placeAll_eq]
  cases x.m
  · exact ports
  · exact (State.queues_placeRequest _ r q y).trans ports

theorem State.queue_placeAll (s : State) (x : Targets) (c : TrafficClass) (r : Nat) (q : Station) :
    (s.placeAll x c r q).mgmt.queue = if x.m && decide (s.mgmt.queue.length < 4) then
      s.mgmt.queue ++ [{ frame := r, requester := q }] else s.mgmt.queue := by
  rw [State.placeAll_eq]
  cases x.m
  · simp [State.placeIf_mgmt]
  · simp [State.queue_placeRequest, State.placeIf_mgmt]

/-- One reference for each delivery taken (R29). -/
theorem State.refs_placeAll (s : State) (x : Targets) (c : TrafficClass) (r : Nat) (q : Station) :
    ((s.placeAll x c r q).record r).refs = (s.record r).refs +
      ([Port.a, .b, .l].filter (fun y => x.at y && s.canPlace y c)).length +
      if x.m && decide (s.mgmt.queue.length < 4) then 1 else 0 := by
  have ports : ((((s.placeIf x.a .a c r).placeIf x.b .b c r).placeIf x.l .l c r).record r).refs =
      (s.record r).refs + ([Port.a, .b, .l].filter (fun y => x.at y && s.canPlace y c)).length := by
    simp only [State.refs_placeIf, State.canPlace_placeIf _ (show Port.b ≠ .a by decide),
      State.canPlace_placeIf _ (show Port.l ≠ .a by decide), State.canPlace_placeIf _ (show Port.l ≠ .b by decide),
      List.filter_cons, List.filter_nil, Targets.at]
    split <;> split <;> split <;> simp [Nat.add_assoc]
  rw [State.placeAll_eq]
  cases x.m
  · exact ports
  · refine (State.refs_placeRequest _ r q).trans ?_
    rw [ports]
    simp [State.placeIf_mgmt]

/-- The end of the placement of a frame (R22) leaves queues, requests, events, pages' bytes and references as the deliveries left
them; a frame delivered nowhere is given back, any other QUEUED or WAITING. -/
theorem State.finishPlacement_spec (h : s.roomy) (r : Nat) :
    (∀ y, (s.finishPlacement r).queues y = s.queues y) ∧ (s.finishPlacement r).mgmt = s.mgmt ∧
      (s.finishPlacement r).events = s.events ∧ (s.finishPlacement r).numbering = s.numbering ∧
      (s.finishPlacement r).store.mem = s.store.mem ∧
      (s.finishPlacement r).record r = { s.record r with state := ((s.finishPlacement r).record r).state } ∧
      if (s.record r).refs = 0 then (s.finishPlacement r).store.freeRecs = s.store.freeRecs ++ [r]
      else (s.finishPlacement r).store.freeRecs = s.store.freeRecs ∧
        ((s.finishPlacement r).record r).state = if s.isQueued r then .queued else .waiting := by
  by_cases h0 : (s.record r).refs = 0
  · obtain ⟨e, -⟩ := (State.release_gaveBack h r).1
    rw [State.finishPlacement_unheld h0, if_pos h0, e]
    exact ⟨fun y => by cases y <;> rfl, rfl, rfl, rfl, rfl, rfl, rfl⟩
  · rw [State.finishPlacement_held h0, if_neg h0]
    refine ⟨fun y => by cases y <;> rfl, rfl, rfl, rfl, rfl, ?_, rfl, ?_⟩ <;> rw [State.record_setRecord_same]

/-! ### The accounts of a lookup (R18, R20) -/

/-- The winner's meter charged and, unless the frame is dropped unprotected, its counter bumped. -/
def State.accounted (s : State) (w : Option SteerEntry) (size : Nat) (prot : Bool) : State :=
  if decide (s.exceeds w size = some .drop) && !prot then (s.chargeMeter w size).1
  else (s.chargeMeter w size).1.bumpCounter w size

theorem State.chargeMeter_eq (s : State) (w : Option SteerEntry) (n : Nat) :
    (s.chargeMeter w n).1 = { s with meters := (s.chargeMeter w n).1.meters } := by
  unfold State.chargeMeter
  split <;> rfl

theorem State.bumpCounter_eq (s : State) (w : Option SteerEntry) (n : Nat) :
    s.bumpCounter w n = { s with counters := (s.bumpCounter w n).counters } := by
  unfold State.bumpCounter
  split <;> rfl

/-- The accounts are the meters and the entry counters. -/
theorem State.accounted_eq (s : State) (w : Option SteerEntry) (n : Nat) (prot : Bool) : ∃ m c,
    s.accounted w n prot = { s with meters := m, counters := c } := by
  unfold State.accounted
  split
  · exact ⟨_, _, s.chargeMeter_eq w n⟩
  · rw [State.bumpCounter_eq, State.chargeMeter_eq]
    exact ⟨_, _, rfl⟩

/-- A lookup by the tables: the accounts, the stored header, the deliveries, and the end of the placement. -/
theorem State.steerByTables_eq (s : State) (r : Nat) (q : Port) (k : FrameKind) (h : Header) (own : Station) (up : TrunkPort)
    {w : Option SteerEntry} {d : Delivery} {c0 : TrafficClass} (hw : w = s.activeBank.winner q up k h)
    (hd : s.decides w k h own d c0) (x : Option ExceedAction) (hx : x = s.exceeds w (s.record r).size) :
    s.steerByTables r q k h own up =
      ((((s.accounted w (s.record r).size (isProtected k h own)).storeSteered r { rewritten w h with
        cls := if x = some .demote then 3 else c0, mark := h.mark || decide (x = some .mark) }).placeAll
          (finalTargets (resolve d q up k h.dest own) (isProtected k h own) (decide (x = some .drop)))
          (if x = some .demote then 3 else c0) r h.source).finishPlacement r) := by
  obtain ⟨hd, hc⟩ := deliveryFor_of_decides hd
  subst hw hx
  unfold State.steerByTables State.accounted
  dsimp only
  rw [State.chargeMeter_snd, hd, hc]

end Sys2Proof.Machine

end

section
/-! What a lookup by the tables leaves: where the frame is, what its winner is charged. -/

namespace Sys2Proof.Machine

variable {s t u : State}

theorem State.canPlace_congr (hq : ∀ y, t.queues y = s.queues y) (hp : t.params = s.params)
    (hl : ∀ p, (t.trunk p).link = (s.trunk p).link) (y : Port) (c : TrafficClass) : t.canPlace y c = s.canPlace y c := by
  rw [Bool.eq_iff_iff, State.canPlace_iff, State.canPlace_iff, hq, hp]
  have depth : t.depth y = s.depth y := by cases y <;> simp [State.depth, hp]
  simp only [hl, depth]

theorem State.storeSteered_frame (s : State) (r : Nat) (h : Header) :
    s.storeSteered r h = { s with store := { s.store with mem := (s.storeSteered r h).store.mem } } := by
  have byte : ∀ (u : State) i b, u.writeFrameByte r i b = { u with
      store := { u.store with mem := (u.writeFrameByte r i b).store.mem } } := fun u i b => by
    unfold State.writeFrameByte
    split
    · split <;> rfl
    · rfl
  unfold State.storeSteered
  rw [byte _ 5, byte _ 4, byte _ 1, byte _ 0]

theorem rewritten_eq (w : Option SteerEntry) (h : Header) : rewritten w h =
    { h with tag := (w.bind SteerEntry.newTag).getD h.tag, channel := (w.bind SteerEntry.newChannel).getD h.channel } := by
  cases w <;> rfl

/-- The bytes of a frame depend on the pages' bytes and the record's page list. -/
theorem State.header_congr {r : Nat} (hm : t.store.mem = s.store.mem) (hp : (t.record r).pages = (s.record r).pages) :
    t.header r = s.header r := by
  have byte : ∀ i, t.frameByte r i = s.frameByte r i := fun i => by
    unfold State.frameByte FrameRecord.addr
    rw [hm, hp]
  rw [State.header_eq, State.header_eq]
  simp only [byte]

/-- The state before the deliveries: accounts and stored header apart, the one before the lookup. -/
theorem State.accounted_storeSteered (s : State) (w : Option SteerEntry) (n : Nat) (prot : Bool) (r : Nat) (h : Header) :
    ∃ m c, (s.accounted w n prot).storeSteered r h = { s with
      meters := m, counters := c
      store := { s.store with mem := ((s.accounted w n prot).storeSteered r h).store.mem } } := by
  obtain ⟨m, c, ha⟩ := s.accounted_eq w n prot
  refine ⟨m, c, ?_⟩
  conv_lhs => rw [State.storeSteered_frame]
  rw [ha]

/-- Where a lookup by the tables leaves the frame, and what it stores of it (R13 to R22). -/
theorem State.steerByTables_spec {q : Port} {r : Nat} {own : Station} {up : TrunkPort} {k : FrameKind}
    {w : Option SteerEntry} {d : Delivery} {c0 c : TrafficClass} {x : Option ExceedAction} (h0 : (s.record r).refs = 0)
    (hr : s.roomy) (hw : w = s.activeBank.winner q up k (s.header r)) (hd : s.decides w k (s.header r) own d c0)
    (hx : x = s.exceeds w (s.record r).size) (hc : c = if x = some .demote then 3 else c0) :
    (∀ y, (s.steerByTables r q k (s.header r) own up).queues y =
        if d.names q up (s.header r).dest own y && decide (x ≠ some .drop) && s.canPlace y c then (s.queues y).push c r
        else s.queues y) ∧
      (s.steerByTables r q k (s.header r) own up).mgmt.queue =
        (if d.namesMgmt k (s.header r) own (decide (x = some .drop)) && decide (s.mgmt.queue.length < 4) then
          s.mgmt.queue ++ [{ frame := r, requester := (s.header r).source }]
        else s.mgmt.queue) ∧
      ((s.steerByTables r q k (s.header r) own up).record r).refs =
        (([Port.a, .b, .l].filter
          (fun y => d.names q up (s.header r).dest own y && decide (x ≠ some .drop) && s.canPlace y c)).length +
          if d.namesMgmt k (s.header r) own (decide (x = some .drop)) && decide (s.mgmt.queue.length < 4) then 1 else 0) ∧
      (if ((s.steerByTables r q k (s.header r) own up).record r).refs = 0 then
          (s.steerByTables r q k (s.header r) own up).store.freeRecs = s.store.freeRecs ++ [r]
        else (s.steerByTables r q k (s.header r) own up).store.freeRecs = s.store.freeRecs ∧
          ((s.steerByTables r q k (s.header r) own up).record r).state =
            if (s.steerByTables r q k (s.header r) own up).isQueued r then .queued else .waiting) ∧
      (∀ pg more, (s.record r).pages = pg :: more → 10 ≤ (s.record r).size →
        (s.steerByTables r q k (s.header r) own up).header r =
          { s.header r with
            tag := (w.bind SteerEntry.newTag).getD (s.header r).tag
            channel := (w.bind SteerEntry.newChannel).getD (s.header r).channel
            cls := c, mark := (s.header r).mark || decide (x = some .mark) }) ∧
      (∀ a, (∀ i ∈ [0, 1, 4, 5], (s.record r).addr i ≠ some a) →
        Memory.read (s.steerByTables r q k (s.header r) own up).store.mem a = Memory.read s.store.mem a) ∧
      (s.steerByTables r q k (s.header r) own up).events = s.events ∧
      (s.steerByTables r q k (s.header r) own up).numbering = s.numbering := by
  rw [State.steerByTables_eq s r q k (s.header r) own up hw hd x hx, ← hc]
  generalize hprot : isProtected k (s.header r) own = prot
  generalize hh1 : ({ rewritten w (s.header r) with
    cls := c, mark := (s.header r).mark || decide (x = some .mark) } : Header) = h1
  generalize htg : finalTargets (resolve d q up k (s.header r).dest own) prot (decide (x = some .drop)) = tg
  obtain ⟨m, cs, he⟩ := s.accounted_storeSteered w (s.record r).size prot r h1
  obtain ⟨m', cs', ha⟩ := s.accounted_eq w (s.record r).size prot
  have mem : ∀ a, (∀ i ∈ [0, 1, 4, 5], (s.record r).addr i ≠ some a) →
      Memory.read ((s.accounted w (s.record r).size prot).storeSteered r h1).store.mem a = Memory.read s.store.mem a :=
    fun a hno => by
      have base := State.read_storeSteered_other (s := s.accounted w (s.record r).size prot) (r := r) (a := a)
        (by rw [ha]; exact hno) h1
      exact base.trans (by rw [ha])
  have header : ∀ pg more, (s.record r).pages = pg :: more → 10 ≤ (s.record r).size →
      ((s.accounted w (s.record r).size prot).storeSteered r h1).header r =
        { s.header r with tag := h1.tag, channel := h1.channel, cls := h1.cls, mark := h1.mark } := fun pg more hp hs => by
    have same : (s.accounted w (s.record r).size prot).header r = s.header r := by rw [ha]; rfl
    rw [← same]
    exact State.header_storeSteered (by rw [ha]; exact hp) (by rw [ha]; exact hs) h1
      (by rw [same, ← hh1, rewritten_eq]) (by rw [same, ← hh1, rewritten_eq])
  generalize (s.accounted w (s.record r).size prot).storeSteered r h1 = v at he mem header ⊢
  have can : ∀ y, v.canPlace y c = s.canPlace y c := fun y =>
    State.canPlace_congr (fun y => by rw [he]; cases y <;> rfl) (by rw [he]) (fun p => by rw [he]; cases p <;> rfl) y c
  have at_ : ∀ y, tg.at y = (d.names q up (s.header r).dest own y && decide (x ≠ some .drop)) := fun y => by
    rw [← htg, Targets.at_final, decide_not]
  have namesM : tg.m = d.namesMgmt k (s.header r) own (decide (x = some .drop)) := by
    rw [← htg, ← hprot, Targets.m_final]
  have vmgmt : v.mgmt = s.mgmt := by rw [he]
  have vrec : v.record r = s.record r := by rw [he]; rfl
  have vq : ∀ y, v.queues y = s.queues y := fun y => by rw [he]; cases y <;> rfl
  have placing := Placing.placeAll v tg c r (s.header r).source
  have hq := State.queues_placeAll v tg c r (s.header r).source
  have hm := State.queue_placeAll v tg c r (s.header r).source
  have href := State.refs_placeAll v tg c r (s.header r).source
  generalize v.placeAll tg c r (s.header r).source = z at placing hq hm href ⊢
  have zroomy : z.roomy := by
    unfold State.roomy
    rw [placing.store, he]
    exact hr
  obtain ⟨fq, fm, fe, fn, fmem, frec, fend⟩ := State.finishPlacement_spec zroomy r
  have refs : ((z.finishPlacement r).record r).refs = (z.record r).refs := by rw [frec]
  have isQ : (z.finishPlacement r).isQueued r = z.isQueued r := by simp only [State.isQueued, fq]
  have free : z.store.freeRecs = s.store.freeRecs := by rw [placing.store, he]
  refine ⟨fun y => ?_, ?_, ?_, ?_, fun pg more hp hs => ?_, fun a hno => ?_, ?_, ?_⟩
  · rw [fq, hq, at_, can, vq]
  · rw [fm, hm, namesM, vmgmt]
  · simp only [refs, href, vrec, h0, at_, can, namesM, vmgmt, Nat.zero_add]
  · rw [refs, isQ, ← free]
    exact fend
  · have same : (z.finishPlacement r).header r = v.header r :=
      State.header_congr (fmem.trans (by rw [placing.store])) (by rw [frec, placing.own])
    rw [same, header pg more hp hs, ← hh1, rewritten_eq]
  · rw [fmem, placing.store]
    exact mem a hno
  · rw [fe, placing.events, he]
  · rw [fn, placing.numbering, he]

/-- Settles O25. -/
theorem lookupSteersByDecision : Obligations.LookupSteersByDecision := by
  intro s q r rest own up k h w d c0 c x hnext hn hh hk ho hs h0 hr hw hd hx hc
  obtain ⟨st, ex, hb⟩ := exec_lookup_steered hnext
  subst hh
  have steered := (State.steerFrame_ordinary (s := { s with steer := st }) hk ho hs).2 own up hn
  refine ⟨_, ex.trans (congrArg Host.Outcome.next steered), ?_⟩
  exact State.steerByTables_spec (s := { s with steer := st }) h0 hr (by rw [hb]; exact hw)
    (by unfold State.decides; rw [hb]; exact hd) hx hc

end Sys2Proof.Machine

end

section
/-! What a lookup charges its winner (R17 to R20, R108). -/

namespace Sys2Proof.Machine

variable {s t u : State}

/-- The deliveries of a frame leave the meters and the entry counters as the accounts left them. -/
theorem State.steerByTables_accounts (s : State) (r : Nat) (q : Port) (k : FrameKind) (h : Header) (own : Station)
    (up : TrunkPort) :
    (s.steerByTables r q k h own up).meters =
        (s.accounted (s.activeBank.winner q up k h) (s.record r).size (isProtected k h own)).meters ∧
      (s.steerByTables r q k h own up).counters =
        (s.accounted (s.activeBank.winner q up k h) (s.record r).size (isProtected k h own)).counters := by
  have delivered : ∀ (a : State) (h1 : Header) (x : Targets) (c : TrafficClass),
      (((a.storeSteered r h1).placeAll x c r h.source).finishPlacement r).meters = a.meters ∧
      (((a.storeSteered r h1).placeAll x c r h.source).finishPlacement r).counters = a.counters := fun a h1 x c => by
    have calm := ((a.storeSteered r h1).placeAll x c r h.source).calm_finishPlacement r
    have placing := Placing.placeAll (a.storeSteered r h1) x c r h.source
    have stored := a.calm_storeSteered r h1
    exact ⟨calm.meters.trans (placing.meters.trans stored.meters), calm.counters.trans (placing.counters.trans stored.counters)⟩
  unfold State.steerByTables State.accounted
  dsimp only
  rw [State.chargeMeter_snd]
  exact delivered _ _ _ _

theorem State.counter_bumpCounter (s : State) (w : SteerEntry) (size n : Nat) :
    (s.bumpCounter (some w) size).counter n =
      if w.counter.map BitVec.toNat = some n then (s.counter n).bump size else s.counter n := by
  unfold State.bumpCounter
  cases hc : w.counter with
  | none => simp [hc]
  | some i =>
    simp only [Option.bind_some, hc, Option.map_some, Option.some.injEq, State.counter_setCounter]
    by_cases h : n = i.toNat
    · rw [if_pos h, if_pos h.symm, h]
    · rw [if_neg h, if_neg (fun e => h e.symm)]

/-- Every account of a frame that is not dropped bumps the winner's counter. -/
theorem State.counter_accounted {w : SteerEntry} {size : Nat} {prot : Bool}
    (h : s.exceeds (some w) size ≠ some .drop ∨ prot = true) (n : Nat) :
    (s.accounted (some w) size prot).counter n =
      if w.counter.map BitVec.toNat = some n then (s.counter n).bump size else s.counter n := by
  unfold State.accounted
  rw [if_neg (by rcases h with h | h <;> simp [h]), State.counter_bumpCounter]
  have same : ∀ n, (s.chargeMeter (some w) size).1.counter n = s.counter n := fun n => by
    rw [State.chargeMeter_eq]; rfl
  rw [same]

theorem State.meters_bumpCounter (s : State) (w : Option SteerEntry) (n : Nat) : (s.bumpCounter w n).meters = s.meters := by
  rw [State.bumpCounter_eq]

theorem State.meters_accounted (s : State) (w : Option SteerEntry) (size : Nat) (prot : Bool) :
    (s.accounted w size prot).meters = (s.chargeMeter w size).1.meters := by
  unfold State.accounted
  split
  · rfl
  · exact State.meters_bumpCounter _ _ _

theorem State.chargeMeter_some {w : SteerEntry} {i : BitVec 5} (h : w.meter = some i) (size : Nat) :
    (s.chargeMeter (some w) size).1 = s.setMeter i.toNat ((s.meter i.toNat).charge size).1 := by
  unfold State.chargeMeter
  rw [Option.bind_some, h]

theorem State.exceeds_some {w : SteerEntry} {i : BitVec 5} (h : w.meter = some i) (size : Nat) :
    s.exceeds (some w) size =
      if (s.meter i.toNat).enabled ∧ (s.meter i.toNat).level < size then some (s.meter i.toNat).action else none := by
  unfold State.exceeds
  rw [Option.bind_some, h]

/-- What a lookup with a winner accounts: the meter the winner names takes its charge, every other stays. -/
theorem State.meter_accounted {w : SteerEntry} {i : BitVec 5} (h : w.meter = some i) (size : Nat) (prot : Bool) (n : Nat) :
    (s.accounted (some w) size prot).meter n =
      if n = i.toNat then ((s.meter i.toNat).charge size).1 else s.meter n := by
  have meters := s.meters_accounted (some w) size prot
  rw [State.chargeMeter_some h] at meters
  exact (congrArg (fun m => Sparse.get Meter.blank m n) meters).trans (State.meter_setMeter _ _ _ _)

/-- A frame with no target is delivered nowhere. -/
theorem State.placeAll_none (s : State) (c : TrafficClass) (r : Nat) (q : Station) :
    s.placeAll { a := false, b := false, l := false, m := false } c r q = s := rfl

/-- A frame dropped unprotected is placed nowhere and given back, and bumps no counter (R19, R20). -/
theorem State.steerByTables_dropped {r : Nat} {q : Port} {k : FrameKind} {h : Header} {own : Station} {up : TrunkPort}
    (hr : s.roomy) (h0 : (s.record r).refs = 0)
    (hx : s.exceeds (s.activeBank.winner q up k h) (s.record r).size = some .drop) (hp : isProtected k h own = false) :
    (s.steerByTables r q k h own up).counters = s.counters ∧ (∀ y, (s.steerByTables r q k h own up).queues y = s.queues y) ∧
      (s.steerByTables r q k h own up).mgmt = s.mgmt ∧
      (s.steerByTables r q k h own up).store.freeRecs = s.store.freeRecs ++ [r] := by
  have accounts := (s.steerByTables_accounts r q k h own up).2
  have charged : s.accounted (s.activeBank.winner q up k h) (s.record r).size (isProtected k h own) =
      (s.chargeMeter (s.activeBank.winner q up k h) (s.record r).size).1 := by
    unfold State.accounted
    rw [hx, hp]
    rfl
  rw [charged, State.chargeMeter_eq] at accounts
  refine ⟨accounts, ?_⟩
  unfold State.steerByTables
  dsimp only
  rw [State.chargeMeter_snd, hx, hp]
  simp only [decide_true, Bool.not_false, Bool.and_self, if_true, finalTargets, State.placeAll_none]
  have given : ∀ (a : State) (h1 : Header) (m : Sparse Meter), a = { s with meters := m } →
      (∀ y, ((a.storeSteered r h1).finishPlacement r).queues y = s.queues y) ∧
        ((a.storeSteered r h1).finishPlacement r).mgmt = s.mgmt ∧
        ((a.storeSteered r h1).finishPlacement r).store.freeRecs = s.store.freeRecs ++ [r] := fun a h1 m ha => by
    have stored := a.storeSteered_frame r h1
    generalize a.storeSteered r h1 = v at stored ⊢
    rw [ha] at stored
    obtain ⟨fq, fm, -, -, -, -, fend⟩ := State.finishPlacement_spec (s := v) (by rw [stored]; exact hr) r
    have vrefs : (v.record r).refs = 0 := by rw [stored]; exact h0
    rw [if_pos vrefs] at fend
    refine ⟨fun y => (fq y).trans ?_, fm.trans ?_, fend.trans ?_⟩ <;> rw [stored]
    cases y <;> rfl
  exact given _ _ _ (s.chargeMeter_eq _ _)

/-- Settles O26. -/
theorem lookupChargesWinner : Obligations.LookupChargesWinner := by
  intro s q r rest own up k w bumped hnext hn hk ho hs hw hbumped
  obtain ⟨st, ex, hb⟩ := exec_lookup_steered hnext
  have win : (State.activeBank { s with steer := st }).winner q up k (State.header { s with steer := st } r) = some w := by
    rw [hb]; exact hw
  have steered := (State.steerFrame_ordinary (s := { s with steer := st }) hk ho hs).2 own up hn
  have ran := ex.trans (congrArg Host.Outcome.next steered)
  obtain ⟨hm, hc⟩ := State.steerByTables_accounts { s with steer := st } r q k (State.header { s with steer := st } r) own up
  rw [win] at hm hc
  have counter : (s.exceeds (some w) (s.record r).size ≠ some .drop ∨ isProtected k (s.header r) own = true) → ∀ n,
      (State.steerByTables { s with steer := st } r q k (State.header { s with steer := st } r) own up).counter n = bumped n :=
    fun h n => by
      rw [hbumped]
      exact (congrArg (fun m => Sparse.get EntryCounter.blank m n) hc).trans
        (State.counter_accounted (s := { s with steer := st }) h n)
  refine ⟨fun hm0 => ⟨_, ran, ?_, counter (.inl ?_)⟩, fun i hi => ?_⟩
  · refine hm.trans ((State.meters_accounted _ _ _ _).trans ?_)
    unfold State.chargeMeter
    rw [Option.bind_some, hm0]
  · unfold State.exceeds
    rw [Option.bind_some, hm0]
    exact nofun
  · have meter : ∀ n, (State.steerByTables { s with steer := st } r q k (State.header { s with steer := st } r) own up).meter n =
        if n = i.toNat then ((s.meter i.toNat).charge (s.record r).size).1 else s.meter n := fun n =>
      (congrArg (fun m => Sparse.get Meter.blank m n) hm).trans
        (State.meter_accounted (s := { s with steer := st }) hi _ _ n)
    have exceeds := State.exceeds_some (s := s) hi (s.record r).size
    refine ⟨fun hd => ⟨_, ran, fun n => ?_, counter (.inl ?_)⟩, fun he hl => ⟨_, ran, ?_, fun n hne => ?_, counter (.inl ?_)⟩,
      fun he hl ha => ⟨_, ran, ?_, fun n hne => ?_, counter ?_⟩,
      fun he hl ha hp h0 hr => ⟨_, ran, ?_, fun n hne => ?_, ?_⟩⟩
    · rw [meter, Meter.charge_disabled hd]
      split
      · next h => rw [h]
      · rfl
    · rw [exceeds, hd, if_neg (fun h => absurd h.1 Bool.false_ne_true)]
      exact nofun
    · rw [meter, if_pos rfl, Meter.charge_conforms he hl]
    · rw [meter, if_neg hne]
    · rw [exceeds, if_neg (fun h => absurd h.2 (Nat.not_lt.mpr hl))]
      exact nofun
    · rw [meter, if_pos rfl, Meter.charge_exceeds he hl]
    · rw [meter, if_neg hne]
    · rw [exceeds, if_pos ⟨he, hl⟩]
      exact ha.imp (fun h e => h (Option.some.inj e)) id
    · rw [meter, if_pos rfl, Meter.charge_exceeds he hl]
    · rw [meter, if_neg hne]
    · exact State.steerByTables_dropped (s := { s with steer := st }) hr h0
        (by rw [win]; exact exceeds.trans ((if_pos ⟨he, hl⟩).trans (congrArg some ha))) hp

end Sys2Proof.Machine

end

section
/-! The numbering unit (R118 to R129): what the handling of one ENUM does, one of several held. -/

namespace Sys2Proof.Machine

variable {s t u : State}

/-! ### Parts of the state beside an operation that does not read them -/

/-- A change of the held ENUMs and of the management engine, its executor excepted. -/
structure Besides where
  enums : List Nat → List Nat
  mgmt : Mgmt → Mgmt

/-- The state with such a change made. -/
def State.besides (s : State) (l : Besides) : State :=
  { s with enums := l.enums s.enums, mgmt := { l.mgmt s.mgmt with executor := s.mgmt.executor } }

theorem State.besides_store (s : State) (l : Besides) : (s.besides l).store = s.store := rfl
theorem State.besides_loc (s : State) (l : Besides) : (s.besides l).loc = s.loc := rfl
theorem State.besides_events (s : State) (l : Besides) : (s.besides l).events = s.events := rfl
theorem State.besides_numbering (s : State) (l : Besides) : (s.besides l).numbering = s.numbering := rfl

theorem State.besides_setWatermark (s : State) (l : Besides) (w : Watermark) :
    (s.besides l).setWatermark w = (s.setWatermark w).besides l := rfl

/-- An operation that neither reads nor changes the held ENUMs and, but for the executor, the management engine. -/
def LeavesAside (f : State → State) : Prop := ∀ (s : State) (l : Besides), f (s.besides l) = (f s).besides l

theorem LeavesAside.comp {f g : State → State} (hf : LeavesAside f) (hg : LeavesAside g) : LeavesAside (fun s => g (f s)) :=
  fun s l => (congrArg g (hf s l)).trans (hg (f s) l)

theorem leavesAside_append (k : EventKind) (q : Option Port) (d : Option Half) : LeavesAside (fun s => s.append k q d) := by
  intro s l
  unfold State.append State.besides
  dsimp only
  split <;> rfl

theorem leavesAside_examineQuietly : LeavesAside State.examineQuietly := by
  intro s l
  have low := fun u : State => leavesAside_append .storeLow none none u l
  dsimp only at low
  unfold State.examineQuietly
  rw [State.besides_store, State.besides_setWatermark, State.besides_setWatermark, low]
  split <;> split <;> rfl

theorem leavesAside_writeFrameByte (r i : Nat) (b : Byte) : LeavesAside (fun s => s.writeFrameByte r i b) := by
  intro s l
  have same : (s.besides l).record r = s.record r := rfl
  dsimp only
  unfold State.writeFrameByte
  rw [same]
  split
  · split <;> rfl
  · rfl

theorem leavesAside_fill (r : Nat) (x : List Byte) : ∀ i, LeavesAside (fun s => s.fill r i x) := by
  induction x with
  | nil => exact fun _ _ _ => rfl
  | cons b x ih => exact fun i => (leavesAside_writeFrameByte r i b).comp (ih (i + 1))

theorem leavesAside_enqueue (q : Port) (c : TrafficClass) (r : Nat) : LeavesAside (fun s => s.enqueue q c r) := by
  intro s l
  cases q <;> rfl

theorem leavesAside_place (q : Port) (c : TrafficClass) (r : Nat) : LeavesAside (fun s => s.place q c r) := by
  intro s l
  have can : (s.besides l).canPlace q c = s.canPlace q c := by cases q <;> rfl
  dsimp only
  cases hc : s.canPlace q c with
  | true => rw [State.place_taken hc, State.place_taken (can.trans hc)]; exact leavesAside_enqueue q c r s l
  | false => rw [State.place_skipped hc, State.place_skipped (can.trans hc)]; cases q <;> rfl

theorem leavesAside_placeByDest (d : Station) (r : Nat) : LeavesAside (fun s => s.placeByDest d r) := by
  intro s l
  have route : (s.besides l).routeByDest d = s.routeByDest d := rfl
  dsimp only
  unfold State.placeByDest
  rw [route]
  split
  · next q _ => exact leavesAside_place q 0 r s l
  · rfl

theorem leavesAside_announce : LeavesAside State.announce := by
  intro s l
  have pending : (s.besides l).resetPending = s.resetPending := rfl
  unfold State.announce
  rw [State.besides_loc, pending]
  split
  · split <;> rfl
  · rfl

theorem leavesAside_releaseSkippedNotice (r : Nat) : LeavesAside (fun s => s.releaseSkippedNotice r) := by
  intro s l
  have back := leavesAside_examineQuietly.comp leavesAside_announce (s.returnRoom r) l
  have same : (s.besides l).record r = s.record r := rfl
  dsimp only
  unfold State.releaseSkippedNotice
  rw [same]
  split
  · exact back
  · rfl

theorem State.takeRoom_besides (s : State) (l : Besides) (src : Source) (len : Nat) :
    (s.besides l).takeRoom src len = (s.takeRoom src len).map (fun x => (x.1, x.2.besides l)) := by
  have room : (s.besides l).roomFor src (pagesNeeded len) = s.roomFor src (pagesNeeded len) := by cases src <;> rfl
  unfold State.takeRoom
  rw [room, State.besides_store]
  split
  · rfl
  · split <;> rfl

theorem leavesAside_sendNotice (e : EventRecord) : LeavesAside (fun s => s.sendNotice e) := by
  intro s l
  have bytes : (s.besides l).noticeBytes e = s.noticeBytes e := rfl
  have station : (s.besides l).params = s.params := rfl
  have flag : ∀ u : State, (u.besides l).setNotice = u.setNotice.besides l := fun _ => rfl
  have filled := fun r x (u : State) => leavesAside_fill r x 0 u l
  have placed := fun d r (u : State) => leavesAside_placeByDest d r u l
  have released := fun r (u : State) => leavesAside_releaseSkippedNotice r u l
  have examined := fun u : State => leavesAside_examineQuietly u l
  dsimp only at filled placed released ⊢
  unfold State.sendNotice
  rw [State.takeRoom_besides, bytes, station]
  cases s.takeRoom .i 10 with
  | none => rfl
  | some x =>
    dsimp only [Option.map]
    rw [examined, filled, placed, released, flag]

theorem leavesAside_raiseEvent (k : EventKind) (q : Option Port) (d : Option Half) :
    LeavesAside (fun s => s.raiseEvent k q d) := by
  intro s l
  have app := leavesAside_append k q d s l
  have sent := leavesAside_sendNotice (s.newRecord k q d) (s.append k q d) l
  dsimp only at app sent ⊢
  have due : ((s.append k q d).besides l).noticeDue = (s.append k q d).noticeDue := rfl
  have new : (s.besides l).newRecord k q d = s.newRecord k q d := rfl
  unfold State.raiseEvent
  dsimp only
  rw [app, due, new, State.besides_events, sent]
  split <;> rfl

theorem leavesAside_examine : LeavesAside State.examine := by
  intro s l
  have low := fun u : State => leavesAside_raiseEvent .storeLow none none u l
  dsimp only at low
  unfold State.examine
  rw [State.besides_store, State.besides_setWatermark, State.besides_setWatermark, low]
  split <;> split <;> rfl

theorem leavesAside_release (r : Nat) : LeavesAside (fun s => s.release r) := fun s l =>
  leavesAside_examine.comp leavesAside_announce (s.returnRoom r) l

theorem leavesAside_releaseUnheld (r : Nat) : LeavesAside (fun s => s.releaseUnheld r) := by
  intro s l
  have same : (s.besides l).record r = s.record r := rfl
  dsimp only
  unfold State.releaseUnheld
  rw [same]
  split
  · exact leavesAside_release r s l
  · rfl

theorem leavesAside_dropRef (r : Nat) : LeavesAside (fun s => s.dropRef r) := by
  intro s l
  have same : (s.besides l).record r = s.record r := rfl
  have queued : (s.besides l).isQueued r = s.isQueued r := rfl
  dsimp only
  unfold State.dropRef
  have backlog : (s.besides l).onBacklog r = s.onBacklog r := rfl
  have set : ∀ f, (s.besides l).setRecord r f = (s.setRecord r f).besides l := fun _ => rfl
  rw [same, queued, backlog]
  split
  · rfl
  · dsimp only
    rw [set]
    split
    · exact leavesAside_release r _ l
    · rfl

theorem leavesAside_sendNumbering (p : TrunkPort) (h : Header) (x : List Byte) :
    LeavesAside (fun s => s.sendNumbering p h x) := by
  intro s l
  dsimp only
  unfold State.sendNumbering State.askRoom
  rw [State.takeRoom_besides]
  cases s.takeRoom .i x.length with
  | none => rfl
  | some y =>
    obtain ⟨r, v⟩ := y
    exact ((leavesAside_examine.comp (leavesAside_fill r (encodeHeader h ++ x) 0)).comp (leavesAside_place (portOf p) 0 r)).comp
      (leavesAside_releaseUnheld r) v l

theorem leavesAside_sendEnumEnd (p : TrunkPort) (last : Station) (x : EndStatus) (run : Half) :
    LeavesAside (fun s => s.sendEnumEnd p last x run) := fun s l =>
  ((leavesAside_sendNumbering p (ownHeader .enumEnd 0 s.numbering.source 0 0 4) (enumEndPayload last x run)).comp
    (leavesAside_raiseEvent .lineEnd (some (portOf p)) (some (x.code.setWidth 16)))) s l

theorem leavesAside_passOn (p : TrunkPort) (own : Station) (force : Bool) (run : Half) :
    LeavesAside (fun s => s.passOn p own force run) := by
  intro s l
  have usable : (s.besides l).usable (otherPort p) = s.usable (otherPort p) := by cases p <;> rfl
  dsimp only
  unfold State.passOn
  rw [usable]
  split
  · exact leavesAside_sendNumbering (otherPort p) (ownHeader .enum 255 s.numbering.source 0 0 4)
      (enumPayload (own + 1) force run) s l
  · exact leavesAside_sendEnumEnd p own .lineEnd run s l

theorem leavesAside_handleOffer (p : TrunkPort) (o : EnumOffer) : LeavesAside (fun s => s.handleOffer p o) := by
  intro s l
  have taken : (s.besides l).takeNumber p o = (s.takeNumber p o).besides l :=
    ((leavesAside_raiseEvent .numberTaken (some (portOf p)) (some (o.next.setWidth 16))).comp
      (leavesAside_passOn p o.next o.force o.run)) { s with numbering := .numbered o.next p } l
  have full := leavesAside_sendEnumEnd p 254 .full o.run s l
  have pass := fun own => leavesAside_passOn p own false o.run s l
  dsimp only at full pass ⊢
  unfold State.handleOffer
  rw [State.besides_numbering, taken, full]
  split
  · rw [pass]
    split
    · rfl
    · cases p <;> rfl
  · split <;> rfl

theorem leavesAside_handleEnum (r : Nat) : LeavesAside (fun s => s.handleEnum r) := by
  intro s l
  have same : (s.besides l).record r = s.record r := rfl
  have bytes : (s.besides l).payload r = s.payload r := rfl
  dsimp only
  unfold State.handleEnum
  rw [same, bytes]
  split
  · next p o _ _ => exact leavesAside_handleOffer p o s l
  · rfl

/-! ### One ENUM held -/

/-- The handling of the one ENUM held. -/
theorem exec_enumHandling_one {r : Nat} (h : s.enums = [r]) :
    exec .enumHandling s = .next ((State.handleEnum { s with enums := [] } r).dropRef r) := by
  refine congrArg Host.Outcome.next ?_
  unfold State.enumHandling State.pickEnum
  rw [h]
  dsimp only
  rw [h, List.erase_cons_head]

theorem arrivalPort_trunkSource (p : TrunkPort) : arrivalPort (trunkSource p) = some p := by cases p <;> rfl

theorem State.handleEnum_valid {r : Nat} {p : TrunkPort} {o : EnumOffer} (hs : (s.record r).source = trunkSource p)
    (ho : enumOffer (s.payload r) = some o) : s.handleEnum r = s.handleOffer p o := by
  unfold State.handleEnum
  rw [hs, arrivalPort_trunkSource, ho]

theorem State.handleEnum_discarded {r : Nat} (ho : enumOffer (s.payload r) = none) : s.handleEnum r = s := by
  unfold State.handleEnum
  rw [ho]
  split
  · next h => exact absurd h (Option.some_ne_none _).symm
  · rfl

/-- An offer to a node with no number, or with force (R121 cases 1 and 2). -/
theorem State.handleOffer_offered (p : TrunkPort) {o : EnumOffer} (h : s.numbering = .unnumbered ∨ o.force = true) :
    s.handleOffer p o = if o.next = 255 then s.sendEnumEnd p 254 .full o.run else s.takeNumber p o := by
  unfold State.handleOffer
  rcases h with h | h
  · rw [h]
  · rw [h]
    cases s.numbering <;> rfl

/-- An unforced offer to a numbered node is passed on from the Upstream port and misdirected elsewhere (R124). -/
theorem State.handleOffer_numbered (p : TrunkPort) {o : EnumOffer} {own : Station} {up : TrunkPort}
    (hn : s.numbering = .numbered own up) (hf : o.force = false) :
    s.handleOffer p o = if p = up then s.passOn p own false o.run else s.raiseTrunk p .enumMisdirected := by
  unfold State.handleOffer
  rw [hn, hf]

theorem enumOffer_invalid {x : List Byte} (h : x.length ≠ 4 ∨ byteAt x 0 = 0 ∨ 1 < (byteAt x 1).toNat) :
    enumOffer x = none := by
  refine if_pos ?_
  simp only [Bool.or_eq_true, decide_eq_true_iff, beq_iff_eq, bne_iff_ne]
  rcases h with h | h | h
  · exact .inl (.inl h)
  · exact .inl (.inr h)
  · refine .inr fun e => ?_
    have bits := congrArg BitVec.toNat e
    rw [BitVec.extractLsb'_toNat] at bits
    have lt := (byteAt x 1).isLt
    simp [Nat.shiftRight_eq_div_pow] at bits
    omega

/-- Settles O27. -/
theorem enumHandlingTakesOrMisdirects : Obligations.EnumHandlingTakesOrMisdirects := by
  refine ⟨fun s r p o he hs ho hn h255 => ?_, fun s r p up own o he hs ho hn hf hp hr => ?_, fun s r he hr hv => ?_,
    fun s he => congrArg Host.Outcome.next ?_, fun s r1 r2 more he => ?_⟩
  · have handled : State.handleEnum { s with enums := [] } r = State.takeNumber { s with enums := [] } p o :=
      (State.handleEnum_valid (s := { s with enums := [] }) hs ho).trans
        ((State.handleOffer_offered (s := { s with enums := [] }) p hn).trans (if_neg h255))
    refine ⟨_, exec_enumHandling_one he, ?_⟩
    rw [handled]
    unfold State.takeNumber
    have raised := (State.still_raiseEvent { s with enums := [], numbering := .numbered o.next p } .numberTaken
      (some (portOf p)) (some (o.next.setWidth 16))).toQuiet
    have rest := ((State.quiet_passOn (State.raiseEvent { s with enums := [], numbering := .numbered o.next p } .numberTaken
      (some (portOf p)) (some (o.next.setWidth 16))) p o.next o.force o.run)).trans (State.still_dropRef _ r).toQuiet
    have calm := (raised.trans rest).calm
    refine ⟨calm.numbering, calm.enums, calm.session, calm.steer, calm.meters, calm.counters, calm.params, fun hl => ?_⟩
    obtain ⟨l, stored⟩ := State.raiseEvent_stored (s := { s with enums := [], numbering := .numbered o.next p }) hl
      .numberTaken (some (portOf p)) (some (o.next.setWidth 16))
    obtain ⟨m, grown⟩ := rest.events.grows
    rw [grown, stored]
    exact ⟨_, List.mem_append_left _ (List.mem_append_right _ List.mem_cons_self), rfl, rfl, rfl⟩
  · have handled : State.handleEnum { s with enums := [] } r = State.raiseTrunk { s with enums := [] } p .enumMisdirected :=
      (State.handleEnum_valid (s := { s with enums := [] }) hs ho).trans
        ((State.handleOffer_numbered (s := { s with enums := [] }) p hn hf).trans (if_neg hp))
    refine ⟨_, exec_enumHandling_one he, ?_⟩
    obtain ⟨st, x, e, -, -⟩ := State.dropRef_roomy (s := State.raiseTrunk { s with enums := [] } p .enumMisdirected)
      (by cases p <;> exact hr) r
    rw [handled, e]
    cases p <;> cases up
    case a.a | b.b => exact absurd rfl hp
    all_goals exact ⟨rfl, rfl, rfl, rfl, rfl, rfl⟩
  · obtain ⟨st, x, e, hm, -⟩ := State.dropRef_roomy (s := { s with enums := [] }) hr r
    refine ⟨_, exec_enumHandling_one he, ?_⟩
    rw [State.handleEnum_discarded (s := { s with enums := [] }) (enumOffer_invalid hv), e]
    exact ⟨rfl, rfl, rfl, rfl, rfl, rfl, rfl, rfl, hm⟩
  · unfold State.enumHandling State.pickEnum
    rw [he]
  · have picked : s.pickEnum = some ((r1 :: r2 :: more).getD (Config.pick s.choices % ((r2 :: more).length + 1)) r1,
        { s with choices := s.choices + 1 }) := by
      unfold State.pickEnum
      rw [he]
    generalize hr : (r1 :: r2 :: more).getD (Config.pick s.choices % ((r2 :: more).length + 1)) r1 = r at picked
    have held : r ∈ s.enums := by
      have bound : Config.pick s.choices % ((r2 :: more).length + 1) < (r1 :: r2 :: more).length :=
        Nat.mod_lt _ (Nat.succ_pos _)
      rw [he, ← hr, List.getD_eq_getElem _ _ bound]
      exact List.getElem_mem bound
    have aside := (leavesAside_handleEnum r).comp (leavesAside_dropRef r) { s with enums := [], choices := s.choices + 1 }
      ⟨fun _ => s.enums.erase r, id⟩
    refine ⟨r, _, held, exec_enumHandling_one (s := { s with enums := [r], choices := s.choices + 1 }) rfl,
      congrArg Host.Outcome.next ?_⟩
    unfold State.enumHandling
    rw [picked]
    exact aside

end Sys2Proof.Machine

end

section
/-! The numbering frames a node sends (R120 to R124). -/

namespace Sys2Proof.Machine

variable {s t u v : State}

/-! ### A frame built under source I -/

/-- The bytes of a frame depend on the pages' bytes, and the record's stored size and page list. -/
theorem State.frameBytes_congr {r : Nat} (hm : t.store.mem = s.store.mem) (hp : (t.record r).pages = (s.record r).pages)
    (hz : (t.record r).size = (s.record r).size) : t.frameBytes r = s.frameBytes r := by
  unfold State.frameBytes
  rw [hz]
  refine List.map_congr_left fun i _ => ?_
  unfold State.frameByte FrameRecord.addr
  rw [hm, hp]

/-- The state in which an admission of source I has been granted record `r`, filled with the frame's bytes. -/
def State.built (s : State) (len r : Nat) (rest : List Nat) (w : Watermark) (bytes : List Byte) : State :=
  ((s.taken .i len r rest).setWatermark w).fill r 0 bytes

/-- A frame built changes the frame store alone. -/
theorem State.built_eq (s : State) (len r : Nat) (rest : List Nat) (w : Watermark) (bytes : List Byte) :
    s.built len r rest w bytes = { s with store := (s.built len r rest w bytes).store } := by
  unfold State.built
  rw [State.fill_eq]
  rfl

theorem State.record_built (s : State) (len r : Nat) (rest : List Nat) (w : Watermark) (bytes : List Byte) :
    (s.built len r rest w bytes).record r =
      { state := .filling, source := .i, size := 10 + len, pages := s.store.freePages.take (pagesNeeded len)
        arrival := s.nodeTime, refs := 0 } := by
  unfold State.built
  rw [State.fill_record]
  exact s.taken_record .i len r rest

theorem State.record_built_other (s : State) {len r x : Nat} (h : x ≠ r) (rest : List Nat) (w : Watermark) (bytes : List Byte) :
    (s.built len r rest w bytes).record x = s.record x := by
  unfold State.built
  rw [State.fill_record]
  simp [State.record, State.taken, State.setWatermark, Sparse.get_set, h]

theorem pagesNeeded_le (len : Nat) : 10 + len ≤ pagesNeeded len * Config.pageSize := by
  have h64 : Config.pageSize = 64 := rfl
  unfold pagesNeeded
  rw [h64]
  omega

/-- The frame built in pages that are distinct is the bytes it was built of. -/
theorem State.frameBytes_built (s : State) {len r : Nat} {rest : List Nat} {w : Watermark} {bytes : List Byte}
    (hp : pagesNeeded len ≤ s.store.freePages.length) (hn : (s.store.freePages.take (pagesNeeded len)).Nodup)
    (hl : bytes.length = 10 + len) : (s.built len r rest w bytes).frameBytes r = bytes := by
  have record : ((s.taken .i len r rest).setWatermark w).record r = _ := s.taken_record .i len r rest
  refine State.frameBytes_fill r (by rw [record]; exact hn) ?_ bytes (by rw [record]; exact hl)
  rw [record]
  dsimp only
  rw [List.length_take, Nat.min_eq_left hp]
  exact pagesNeeded_le len

theorem State.roomy_built {len r : Nat} {rest : List Nat} {w : Watermark}
    (h : ((s.taken .i len r rest).setWatermark w).roomy) (bytes : List Byte) : (s.built len r rest w bytes).roomy := by
  unfold State.built
  rw [State.fill_eq]
  exact h

theorem State.queues_built (s : State) (len r : Nat) (rest : List Nat) (w : Watermark) (bytes : List Byte) (y : Port) :
    (s.built len r rest w bytes).queues y = s.queues y := by
  rw [State.built_eq]
  cases y <;> rfl

theorem State.canPlace_built (s : State) (len r : Nat) (rest : List Nat) (w : Watermark) (bytes : List Byte) (y : Port)
    (c : TrafficClass) : (s.built len r rest w bytes).canPlace y c = s.canPlace y c := by
  refine State.canPlace_congr (fun y => s.queues_built len r rest w bytes y) ?_ (fun p => ?_) y c
  · rw [State.built_eq]
  · rw [State.built_eq]
    cases p <;> rfl

/-! ### A numbering frame sent (R24, R120) -/

theorem State.sendNumbering_granted {x : Nat} (h : s.givesRoom x 1) (p : TrunkPort) (H : Header) {pl : List Byte}
    (hl : pl.length = 4) : ∃ rest w, (s.built 4 x rest w (encodeHeader H ++ pl)).roomy ∧
      s.sendNumbering p H pl = ((s.built 4 x rest w (encodeHeader H ++ pl)).place (portOf p) 0 x).releaseUnheld x := by
  obtain ⟨⟨rest, hf⟩, hp, hq, hw⟩ := h
  obtain ⟨w, ha, hr⟩ := s.askRoom_roomy (src := .i) (len := 4) hf hp hq hw
  refine ⟨rest, w, State.roomy_built hr _, ?_⟩
  unfold State.sendNumbering
  rw [hl, ha]
  rfl

theorem State.sendNumbering_refused (h : s.lacksRoom 1) (p : TrunkPort) (H : Header) {pl : List Byte} (hl : pl.length = 4) :
    s.sendNumbering p H pl = s := by
  unfold State.sendNumbering
  rw [hl, State.askRoom_refused (s := s) (src := .i) (len := 4) h]

/-- A numbering frame a port takes: it stands at the tail of class 0 there, built as given. -/
theorem State.sendNumbering_placed {x : Nat} (h : s.givesRoom x 1) (p : TrunkPort) (H : Header) {pl : List Byte}
    (hl : pl.length = 4) (hc : s.canPlace (portOf p) 0 = true) :
    s.sendsOut (s.sendNumbering p H pl) p x (encodeHeader H ++ pl) ∧ (s.sendNumbering p H pl).events = s.events ∧
      (s.sendNumbering p H pl).roomy ∧ ∀ y, y ≠ x → (s.sendNumbering p H pl).record y = s.record y := by
  obtain ⟨rest, w, hr, e⟩ := State.sendNumbering_granted h p H hl
  have built := s.record_built 4 x rest w (encodeHeader H ++ pl)
  have one : pagesNeeded 4 = 1 := rfl
  have bytes : (s.built 4 x rest w (encodeHeader H ++ pl)).frameBytes x = encodeHeader H ++ pl :=
    s.frameBytes_built h.2.1 (by rw [one]; cases s.store.freePages <;> simp) (by simp [hl])
  have frame := s.built_eq 4 x rest w (encodeHeader H ++ pl)
  have queues := s.queues_built 4 x rest w (encodeHeader H ++ pl)
  have others := fun y (hy : y ≠ x) => s.record_built_other hy rest w (encodeHeader H ++ pl) (len := 4)
  rw [State.place_taken ((s.canPlace_built ..).trans hc)] at e
  generalize s.built 4 x rest w (encodeHeader H ++ pl) = v at *
  have held : ((v.enqueue (portOf p) 0 x).record x).refs ≠ 0 := by
    rw [State.record_enqueue_same]
    exact Nat.succ_ne_zero _
  have kept : (v.enqueue (portOf p) 0 x).releaseUnheld x = v.enqueue (portOf p) 0 x := if_neg held
  rw [e, kept]
  refine ⟨⟨?_, fun y hy => ?_, ?_, ?_⟩, ?_, ?_, fun y hy => ?_⟩
  · rw [State.queues_enqueue, if_pos rfl, queues]
  · rw [State.queues_enqueue, if_neg hy, queues]
  · refine Eq.trans (State.frameBytes_congr ?_ ?_ ?_) bytes
    · rw [State.enqueue_frame]
    · rw [State.record_enqueue_same]
    · rw [State.record_enqueue_same]
  · rw [State.record_enqueue_same, built]
  · rw [State.enqueue_frame, frame]
  · rw [State.enqueue_frame]
    exact hr
  · rw [State.record_enqueue hy, others y hy]

/-- A numbering frame skipped: counted at its port, and its room given back. -/
theorem State.sendNumbering_skipped {x : Nat} (h : s.givesRoom x 1) (p : TrunkPort) (H : Header) {pl : List Byte}
    (hl : pl.length = 4) (hc : s.canPlace (portOf p) 0 = false) :
    (∀ y, (s.sendNumbering p H pl).queues y = s.queues y) ∧
      ((s.sendNumbering p H pl).trunk p).stats.queueFullSkips = satInc (s.trunk p).stats.queueFullSkips ∧
      (s.sendNumbering p H pl).events = s.events ∧ (s.sendNumbering p H pl).roomy := by
  obtain ⟨rest, w, hr, e⟩ := State.sendNumbering_granted h p H hl
  have built := s.record_built 4 x rest w (encodeHeader H ++ pl)
  have frame := s.built_eq 4 x rest w (encodeHeader H ++ pl)
  rw [State.place_skipped ((s.canPlace_built ..).trans hc)] at e
  generalize s.built 4 x rest w (encodeHeader H ++ pl) = v at *
  have unheld : (v.raiseSkip (portOf p)).releaseUnheld x = (v.raiseSkip (portOf p)).release x :=
    if_pos (by
      have same : (v.raiseSkip (portOf p)).record x = v.record x := by cases p <;> rfl
      rw [same, built])
  obtain ⟨⟨back, -⟩, room⟩ := State.release_gaveBack (s := v.raiseSkip (portOf p)) (by cases p <;> exact hr) x
  rw [e, unheld]
  refine ⟨fun y => ?_, ?_, ?_, room⟩ <;> rw [back, frame]
  · cases p <;> cases y <;> rfl
  · cases p <;> rfl
  · cases p <;> rfl

/-! ### The end of the handling: N drops its reference -/

/-- A reference dropped changes no other record. -/
theorem State.record_dropRef {r x : Nat} (h : x ≠ r) (hr : s.roomy) : (s.dropRef r).record x = s.record x := by
  have set : ∀ f, (s.setRecord r f).record x = s.record x := fun f => by rw [State.record_setRecord, if_neg h]
  unfold State.dropRef
  split
  · rfl
  · dsimp only
    split
    · next n _ _ =>
      obtain ⟨e, -⟩ := (State.release_gaveBack (s := s.setRecord r
        { s.record r with refs := n, state := if s.isQueued r then .queued else .waiting }) hr r).1
      rw [e]
      exact set _
    · exact set _

/-- What of a state after an ENUM's handling is unchanged by N's reference dropped. -/
theorem State.dropRef_rest (h : s.roomy) (r : Nat) :
    (s.dropRef r).events = s.events ∧ (s.dropRef r).numbering = s.numbering ∧ (s.dropRef r).enums = s.enums ∧
      (s.dropRef r).trunkA = s.trunkA ∧ (s.dropRef r).trunkB = s.trunkB ∧ (s.dropRef r).loc.queues = s.loc.queues ∧
      (s.dropRef r).store.mem = s.store.mem := by
  obtain ⟨st, x, e, hm, -⟩ := s.dropRef_roomy h r
  rw [e]
  exact ⟨rfl, rfl, rfl, rfl, rfl, rfl, hm⟩

theorem State.queues_of_ports (ha : t.trunkA = s.trunkA) (hb : t.trunkB = s.trunkB) (hl : t.loc.queues = s.loc.queues)
    (y : Port) : t.queues y = s.queues y := by
  cases y
  · exact congrArg Trunk.queues ha
  · exact congrArg Trunk.queues hb
  · exact hl

/-- What an event behind others leaves of the sent frame's port and record: everything. -/
theorem State.append_rest (s : State) (k : EventKind) (q : Option Port) (d : Option Half) :
    s.append k q d = { s with events := (s.append k q d).events } := by
  unfold State.append
  split <;> rfl

/-- What follows the sending of a numbering frame within the handling: nothing, or LINE_END. -/
inductive AfterSent : (State → State) → Prop where
  | nothing : AfterSent id
  | lineEnd (q : Option Port) (d : Option Half) : AfterSent (fun v => v.append .lineEnd q d)

theorem AfterSent.rest {f : State → State} (h : AfterSent f) (s : State) : f s = { s with events := (f s).events } := by
  cases h with
  | nothing => rfl
  | lineEnd q d => exact s.append_rest .lineEnd q d

theorem AfterSent.events {f : State → State} (h : AfterSent f) (he : t.events = s.events) (hn : t.nodeTime = s.nodeTime)
    (hp : t.params = s.params) : (f t).events = (f s).events := by
  cases h with
  | nothing => exact he
  | lineEnd q d => exact State.append_events_congr he hn hp .lineEnd q d

/-- The node as it stands when the frame is sent: the number and the events apart, the one before the handling. -/
def State.renumbered (s v : State) : Prop :=
  v = { s with events := v.events, numbering := v.numbering, enums := v.enums }

/-- The outcome of a handling that sends a frame, admitted and taken, admitted and skipped, or refused (R24, R120). -/
theorem State.sent_and_dropped {f : State → State} (hv : s.renumbered v) (hf : AfterSent f) (r x : Nat) (q : TrunkPort)
    (H : Header) {pl : List Byte} (hl : pl.length = 4) :
    (s.givesRoom x 1 → x ≠ r → s.canPlace (portOf q) 0 = true →
      ((f (v.sendNumbering q H pl)).dropRef r).numbering = v.numbering ∧
      ((f (v.sendNumbering q H pl)).dropRef r).enums = v.enums ∧
      ((f (v.sendNumbering q H pl)).dropRef r).events = (f v).events ∧
      s.sendsOut ((f (v.sendNumbering q H pl)).dropRef r) q x (encodeHeader H ++ pl)) ∧
    (s.givesRoom x 1 → s.canPlace (portOf q) 0 = false →
      ((f (v.sendNumbering q H pl)).dropRef r).numbering = v.numbering ∧
      ((f (v.sendNumbering q H pl)).dropRef r).enums = v.enums ∧
      ((f (v.sendNumbering q H pl)).dropRef r).events = (f v).events ∧
      (∀ y, ((f (v.sendNumbering q H pl)).dropRef r).queues y = s.queues y) ∧
      (((f (v.sendNumbering q H pl)).dropRef r).trunk q).stats.queueFullSkips = satInc (s.trunk q).stats.queueFullSkips) ∧
    (s.lacksRoom 1 → s.roomy →
      ((f (v.sendNumbering q H pl)).dropRef r).numbering = v.numbering ∧
      ((f (v.sendNumbering q H pl)).dropRef r).enums = v.enums ∧
      ((f (v.sendNumbering q H pl)).dropRef r).events = (f v).events ∧
      ((f (v.sendNumbering q H pl)).dropRef r).trunkA = s.trunkA ∧
      ((f (v.sendNumbering q H pl)).dropRef r).trunkB = s.trunkB ∧
      ((f (v.sendNumbering q H pl)).dropRef r).loc.queues = s.loc.queues) := by
  have calm := v.calm_sendNumbering q H pl
  have rest := hf.rest (v.sendNumbering q H pl)
  have events := fun he => hf.events (s := v) (t := v.sendNumbering q H pl) he calm.nodeTime calm.params
  have vq : ∀ y, v.queues y = s.queues y := fun y => by rw [hv]; cases y <;> rfl
  have room : s.givesRoom x 1 → v.givesRoom x 1 := fun h => by rw [hv]; exact h
  have lacks : s.lacksRoom 1 → v.lacksRoom 1 := fun h => by rw [hv]; exact h
  have can : v.canPlace (portOf q) 0 = s.canPlace (portOf q) 0 :=
    State.canPlace_congr vq (by rw [hv]) (fun p => by rw [hv]; cases p <;> rfl) _ _
  have vtrunk : v.trunk q = s.trunk q := by rw [hv]; cases q <;> rfl
  refine ⟨fun hg hx hc => ?_, fun hg hc => ?_, fun hg hr => ?_⟩
  · obtain ⟨⟨hq, ho, hb, h1⟩, he, hr, hrec⟩ := State.sendNumbering_placed (room hg) q H hl (can.trans hc)
    generalize v.sendNumbering q H pl = z at *
    have zr : (f z).roomy := by rw [rest]; exact hr
    obtain ⟨de, dn, dm, da, db, dl, dmem⟩ := State.dropRef_rest zr r
    have record := (State.record_dropRef hx zr).trans (congrArg (fun w => State.record w x) rest)
    have queues : ∀ y, ((f z).dropRef r).queues y = z.queues y := fun y =>
      (State.queues_of_ports da db dl y).trans (by rw [rest]; cases y <;> rfl)
    refine ⟨dn.trans (by rw [rest]; exact calm.numbering), dm.trans (by rw [rest]; exact calm.enums), de.trans (events he),
      (queues _).trans (hq.trans (by rw [vq])), fun y hy => (queues y).trans ((ho y hy).trans (vq y)), ?_, ?_⟩
    · refine Eq.trans (State.frameBytes_congr (s := z) ?_ ?_ ?_) hb
      · rw [dmem, rest]
      · rw [record]; rfl
      · rw [record]; rfl
    · rw [record]
      exact h1
  · obtain ⟨hq, hs, he, hr⟩ := State.sendNumbering_skipped (room hg) q H hl (can.trans hc)
    generalize v.sendNumbering q H pl = z at *
    have zr : (f z).roomy := by rw [rest]; exact hr
    obtain ⟨de, dn, dm, da, db, dl, dmem⟩ := State.dropRef_rest zr r
    refine ⟨dn.trans (by rw [rest]; exact calm.numbering), dm.trans (by rw [rest]; exact calm.enums), de.trans (events he),
      fun y => ?_, ?_⟩
    · exact (State.queues_of_ports da db dl y).trans
        ((by rw [rest]; cases y <;> rfl : _ = z.queues y).trans ((hq y).trans (vq y)))
    · have same : ((f z).dropRef r).trunk q = z.trunk q := by
        cases q
        · exact da.trans (by rw [rest]; rfl)
        · exact db.trans (by rw [rest]; rfl)
      rw [same, hs, vtrunk]
  · rw [State.sendNumbering_refused (lacks hg) q H hl] at *
    have zr : (f v).roomy := by rw [rest, hv]; exact hr
    obtain ⟨de, dn, dm, da, db, dl, dmem⟩ := State.dropRef_rest zr r
    refine ⟨dn.trans (by rw [rest]), dm.trans (by rw [rest]), de, da.trans (by rw [rest, hv]), db.trans (by rw [rest, hv]),
      dl.trans (by rw [rest, hv])⟩

end Sys2Proof.Machine

end

section
/-! ENUM_HANDLING: the run passed on, or ended with LINE_END (R120 to R124). -/

namespace Sys2Proof.Machine

variable {s t u v : State}

theorem halfBytes_half (hi lo : Byte) : halfBytes (half hi lo) = [hi, lo] :=
  congrArg₂ (fun a b => [a, b]) (extract_append_high hi lo) (extract_append_low hi lo)

/-- A valid offer's fields (R119). -/
theorem enumOffer_valid {n f : Byte} (hi lo : Byte) (hn : n ≠ 0) (hf : f = 0 ∨ f = 1) :
    enumOffer [n, f, hi, lo] = some { next := n, force := f == 1, run := half hi lo } := by
  have n0 : (n == 0) = false := beq_false_of_ne hn
  have h0 : byteAt [n, f, hi, lo] 0 = n := rfl
  have h1 : byteAt [n, f, hi, lo] 1 = f := rfl
  have h2 : halfAt [n, f, hi, lo] 2 = half hi lo := rfl
  unfold enumOffer
  rw [h0, h1, h2, n0]
  rcases hf with rfl | rfl <;> rfl

theorem enumPayload_eq {f : Byte} (next : Station) (hi lo : Byte) (hf : f = 0 ∨ f = 1) :
    enumPayload next (f == 1) (half hi lo) = [next, f, hi, lo] := by
  unfold enumPayload
  rw [halfBytes_half]
  rcases hf with rfl | rfl <;> rfl

theorem enumEndPayload_eq (last : Station) (x : EndStatus) (hi lo : Byte) :
    enumEndPayload last x (half hi lo) = [last, x.code, hi, lo] := by
  unfold enumEndPayload
  rw [halfBytes_half]
  rfl

/-- An ENUM_END sent with other events waiting: LINE_END is appended behind them and sends no notice. -/
theorem State.sendEnumEnd_eq (h : v.events.records ≠ []) {own : Station} (hs : v.numbering.source = own) (p : TrunkPort)
    (last : Station) (x : EndStatus) (hi lo : Byte) :
    v.sendEnumEnd p last x (half hi lo) =
      (v.sendNumbering p (ownHeader .enumEnd 0 own 0 0 4) [last, x.code, hi, lo]).append .lineEnd (some (portOf p))
        (some (x.code.setWidth 16)) := by
  unfold State.sendEnumEnd
  rw [enumEndPayload_eq, hs]
  exact State.raiseEvent_behind _ _ _ ((v.quiet_sendNumbering _ _ _).events.held h)

/-- What the handling of the one held ENUM does where it sends a frame: in each of the three outcomes of the sending. -/
theorem enum_outcomes {r x : Nat} {q : TrunkPort} {f : State → State} {H : Header} {pl frame : List Byte} {num : Numbering}
    {t' : State} (he : s.enums = [r])
    (handled : State.handleEnum { s with enums := [] } r = f (v.sendNumbering q H pl)) (hv : s.renumbered v)
    (hf : AfterSent f) (hl : pl.length = 4) (hn : v.numbering = num) (hm : v.enums = []) (ht : (f v).events = t'.events)
    (hfr : frame = encodeHeader H ++ pl) :
    (s.givesRoom x 1 → x ≠ r → s.canPlace (portOf q) 0 = true →
      ∃ t : State, exec .enumHandling s = .next t ∧ t.numbering = num ∧ t.enums = [] ∧ t.events = t'.events ∧
        s.sendsOut t q x frame) ∧
    (s.givesRoom x 1 → x ≠ r → s.canPlace (portOf q) 0 = false →
      ∃ t : State, exec .enumHandling s = .next t ∧ t.numbering = num ∧ t.enums = [] ∧ t.events = t'.events ∧
        (∀ y, t.queues y = s.queues y) ∧
        (t.trunk q).stats.queueFullSkips = satInc (s.trunk q).stats.queueFullSkips) ∧
    (s.lacksRoom 1 → s.roomy →
      ∃ t : State, exec .enumHandling s = .next t ∧ t.numbering = num ∧ t.enums = [] ∧ t.events = t'.events ∧
        t.trunkA = s.trunkA ∧ t.trunkB = s.trunkB ∧ t.loc.queues = s.loc.queues) := by
  subst hfr hn
  have ran := exec_enumHandling_one he
  rw [handled] at ran
  obtain ⟨placed, skipped, refused⟩ := State.sent_and_dropped hv hf r x q H hl
  rw [hm, ht] at placed skipped refused
  exact ⟨fun hg hx hc => ⟨_, ran, placed hg hx hc⟩, fun hg _ hc => ⟨_, ran, skipped hg hc⟩, fun hg hr => ⟨_, ran, refused hg hr⟩⟩

/-- The node in whose name a run is passed on: `v` in the handling, `u` as the claim names it. -/
structure PassesAs (s v u : State) (own : Station) (num : Numbering) : Prop where
  renumbered : s.renumbered v
  numbering : v.numbering = num
  enums : v.enums = []
  source : v.numbering.source = own
  events : v.events = u.events
  nodeTime : v.nodeTime = u.nodeTime
  params : v.params = u.params
  behind : u.events.records ≠ []

theorem PassesAs.lineEnd {own : Station} {num : Numbering} (h : PassesAs s v u own num) (q : Option Port) (d : Option Half) :
    (v.append .lineEnd q d).events = (u.raiseEvent .lineEnd q d).events := by
  rw [State.raiseEvent_behind _ _ _ h.behind]
  exact State.append_events_congr h.events h.nodeTime h.params .lineEnd q d

/-- A node that takes the number passes the run on in its new name (R121). -/
theorem State.takeNumber_passesOn {p : TrunkPort} {n : Station} {force : Bool} {run : Half} (hne : s.events.records ≠ []) :
    ∃ v, State.takeNumber { s with enums := [] } p { next := n, force := force, run := run } = v.passOn p n force run ∧
      PassesAs s v (s.raiseEvent .numberTaken (some (portOf p)) (some (n.setWidth 16))) n (.numbered n p) := by
  have behind : State.raiseEvent { s with enums := [], numbering := .numbered n p } .numberTaken (some (portOf p))
      (some (n.setWidth 16)) = State.append { s with enums := [], numbering := .numbered n p } .numberTaken (some (portOf p))
        (some (n.setWidth 16)) := State.raiseEvent_behind _ _ _ hne
  refine ⟨State.append { s with enums := [], numbering := .numbered n p } .numberTaken (some (portOf p)) (some (n.setWidth 16)),
    ?_, ?_⟩
  · rw [← behind]
    rfl
  · have rest := State.append_rest { s with enums := [], numbering := .numbered n p } .numberTaken (some (portOf p))
      (some (n.setWidth 16))
    have events : (State.append { s with enums := [], numbering := .numbered n p } .numberTaken (some (portOf p))
        (some (n.setWidth 16))).events = (s.append .numberTaken (some (portOf p)) (some (n.setWidth 16))).events :=
      State.append_events_congr (s := s) (t := { s with enums := [], numbering := .numbered n p }) rfl rfl rfl _ _ _
    have grown := (State.eventsKept_append s .numberTaken (some (portOf p)) (some (n.setWidth 16))).held hne
    have urest := State.append_rest s .numberTaken (some (portOf p)) (some (n.setWidth 16))
    rw [State.raiseEvent_behind _ _ _ hne]
    generalize State.append { s with enums := [], numbering := .numbered n p } .numberTaken (some (portOf p))
      (some (n.setWidth 16)) = v at rest events ⊢
    generalize s.append .numberTaken (some (portOf p)) (some (n.setWidth 16)) = u at urest events grown ⊢
    refine ⟨?_, ?_, ?_, ?_, events, ?_, ?_, grown⟩
    · rw [State.renumbered, rest]
    · rw [rest]
    · rw [rest]
    · rw [rest]
      rfl
    · rw [rest, urest]
    · rw [rest, urest]

/-- A run passed on: an ENUM out of the other port where that is usable, else an ENUM_END and LINE_END (R121, R124). -/
theorem passOn_sends {own : Station} {num : Numbering} {p q : TrunkPort} {f hi lo : Byte} {t' : State} {frame : List Byte}
    (hp : PassesAs s v u own num) (hf : f = 0 ∨ f = 1)
    (h : s.usable (otherPort p) = true ∧ q = otherPort p ∧ t' = u ∧
        frame = encodeHeader (ownHeader .enum 255 own 0 0 4) ++ [own + 1, f, hi, lo] ∨
      s.usable (otherPort p) = false ∧ q = p ∧ t' = u.raiseEvent .lineEnd (some (portOf p)) (some 1) ∧
        frame = encodeHeader (ownHeader .enumEnd 0 own 0 0 4) ++ [own, 1, hi, lo]) :
    ∃ g H pl, v.passOn p own (f == 1) (half hi lo) = g (v.sendNumbering q H pl) ∧ AfterSent g ∧ pl.length = 4 ∧
      (g v).events = t'.events ∧ frame = encodeHeader H ++ pl := by
  have usable : v.usable (otherPort p) = s.usable (otherPort p) := by
    rw [hp.renumbered]
    cases p <;> rfl
  rcases h with ⟨hu, rfl, rfl, rfl⟩ | ⟨hu, rfl, rfl, rfl⟩
  · refine ⟨id, _, _, ?_, .nothing, rfl, hp.events, rfl⟩
    unfold State.passOn State.sendEnum
    rw [usable, if_pos hu, enumPayload_eq _ hi lo hf, hp.source]
    rfl
  · refine ⟨fun z => z.append .lineEnd (some (portOf q)) (some 1), _, _, ?_, .lineEnd _ _, rfl, hp.lineEnd _ _, rfl⟩
    unfold State.passOn
    rw [usable, if_neg (by rw [hu]; exact Bool.false_ne_true)]
    exact State.sendEnumEnd_eq (hp.events ▸ hp.behind) hp.source q own .lineEnd hi lo

/-- Settles O28. -/
theorem enumPassesOnOrEndsLine : Obligations.EnumPassesOnOrEndsLine := by
  intro s r x p q n f hi lo own num u t' frame he hs hpl hn0 hf hne h
  have offer : enumOffer (State.payload { s with enums := [] } r) = some { next := n, force := f == 1, run := half hi lo } :=
    (congrArg enumOffer hpl).trans (enumOffer_valid hi lo hn0 hf)
  have handled := State.handleEnum_valid (s := { s with enums := [] }) hs offer
  rcases h with ⟨huv, hq⟩ | ⟨hn, h255, hnum, rfl, rfl, rfl⟩
  · obtain ⟨v, passed, hv⟩ : ∃ v, State.handleEnum { s with enums := [] } r = v.passOn p own (f == 1) (half hi lo) ∧
        PassesAs s v u own num := by
      rcases huv with ⟨hu, h255, rfl, rfl, rfl⟩ | ⟨rfl, hn, rfl, hu⟩
      · obtain ⟨v, hpass, hv⟩ := State.takeNumber_passesOn (s := s) (p := p) (n := own) (force := f == 1) (run := half hi lo) hne
        have offered := State.handleOffer_offered (s := { s with enums := [] }) p
          (o := { next := own, force := f == 1, run := half hi lo }) (hu.imp id (fun e => by rw [e]; rfl))
        exact ⟨v, (handled.trans (offered.trans (if_neg h255))).trans hpass, hv⟩
      · refine ⟨{ s with enums := [] }, ?_, ⟨rfl, rfl, rfl, congrArg Numbering.source hn, by rw [hu], by rw [hu], by rw [hu],
          by rw [hu]; exact hne⟩⟩
        exact handled.trans ((State.handleOffer_numbered (s := { s with enums := [] }) p hn rfl).trans (if_pos rfl))
    obtain ⟨g, H, pl, hg, hafter, hl, hev, hfr⟩ := passOn_sends (q := q) (t' := t') (frame := frame) (hi := hi)
        (lo := lo) hv hf hq
    exact enum_outcomes he (passed.trans hg) hv.renumbered hafter hl hv.numbering hv.enums hev hfr
  · subst h255
    have offered := State.handleOffer_offered (s := { s with enums := [] }) q
      (o := { next := 255, force := f == 1, run := half hi lo })
      (hn.imp (fun h => h.1) (fun h => by rw [h.1]; rfl))
    have source : (State.numbering { s with enums := [] }).source = own := by
      rcases hn with ⟨hn, rfl⟩ | ⟨-, up, hn⟩
      · exact congrArg Numbering.source hn
      · exact congrArg Numbering.source hn
    have full := State.sendEnumEnd_eq (v := { s with enums := [] }) hne source q 254 .full hi lo
    refine enum_outcomes (f := fun z => z.append .lineEnd (some (portOf q)) (some 2)) he
      ((handled.trans (offered.trans (if_pos rfl))).trans full) rfl (.lineEnd _ _) rfl hnum.symm rfl ?_ rfl
    rw [State.raiseEvent_behind _ _ _ hne]
    exact State.append_events_congr (s := s) (t := { s with enums := [] }) rfl rfl rfl _ _ _

end Sys2Proof.Machine

end

section
/-! READ_COUNTERS and READ_COUNTERS_CLEAR (R114 to R116). -/

namespace Sys2Proof.Machine

variable {s t u : State}

/-! ### The statistics of a group, by number -/

/-- The statistics of a trunk port in the order of their numbers (R114). -/
def TrunkStats.list (t : TrunkStats) : List Half :=
  [t.framesStored, t.duplicates, t.headerErrors, t.checkFailures, t.busyRefusals, t.sourceInvalid, t.enumMisdirected,
    t.framesSent, t.retransmissions, t.strayAcks, t.retryExhaustions, t.residenceDiscards, t.queueFullSkips]

/-- The local statistics in the order of their numbers (R114). -/
def LocalStats.list (t : LocalStats) : List Half :=
  [t.framesIn, t.framesOut, t.localRefusals, t.residenceDiscards, t.queueFullSkips]

/-- The management statistics in the order of their numbers (R114). -/
def MgmtStats.list (t : MgmtStats) : List Half :=
  [t.requestsExecuted, t.malformed, t.requestsRefused, t.replays, t.replaysSuppressed, t.responsesDropped]

/-- The statistics of a group; none for the entry counters. -/
def State.stats (s : State) : Group → List Half
  | .entry => []
  | .portA => s.trunkA.stats.list
  | .portB => s.trunkB.stats.list
  | .local_ => s.loc.stats.list
  | .mgmt => s.mgmt.stats.list

theorem groupOf_eq_none {b : Byte} (h : 4 < b.toNat) : groupOf b = none := by
  unfold groupOf
  split
  case h_6 => rfl
  all_goals
    next e => exact absurd (e ▸ h) (by decide)

/-- The five group codes (R103). -/
theorem group_cases {b : Byte} (h : b.toNat ≤ 4) : b = 0 ∨ b = 1 ∨ b = 2 ∨ b = 3 ∨ b = 4 := by
  have code : ∀ n, b.toNat = n → n ≤ 4 → b = BitVec.ofNat 8 n := fun n e hn =>
    BitVec.eq_of_toNat_eq (by rw [e, BitVec.toNat_ofNat]; omega)
  generalize hn : b.toNat = n at h
  have e := code n hn h
  interval_cases n
  · exact .inl e
  · exact .inr (.inl e)
  · exact .inr (.inr (.inl e))
  · exact .inr (.inr (.inr (.inl e)))
  · exact .inr (.inr (.inr (.inr e)))

/-- The statistics under a group code are those of its group; a code of no group, or of the entry counters, has none. -/
theorem State.statistics_eq (s : State) (b : Byte) : s.statistics b = ((groupOf b).map s.stats).getD [] := by
  by_cases h : b.toNat ≤ 4
  · rcases group_cases h with rfl | rfl | rfl | rfl | rfl <;> rfl
  · rw [groupOf_eq_none (Nat.not_le.mp h)]
    have ne : ∀ n, n ≤ 4 → b ≠ BitVec.ofNat 8 n := fun n hn e => by
      rw [e, BitVec.toNat_ofNat] at h
      omega
    unfold State.statistics
    dsimp only
    rw [if_neg (show ¬ b = 1 from ne 1 (by decide)), if_neg (show ¬ b = 2 from ne 2 (by decide)),
      if_neg (show ¬ b = 3 from ne 3 (by decide)), if_neg (show ¬ b = 4 from ne 4 (by decide))]
    rfl

theorem Group.length_stats (s : State) {g : Group} (h : g ≠ .entry) : (s.stats g).length = g.top + 1 := by
  cases g
  case entry => exact absurd rfl h
  all_goals rfl

/-- A statistic's record is its two bytes (R105). -/
theorem State.counterRecord_eq (s : State) {g : Group} (h : g ≠ .entry) {n : Nat} (hn : n < (s.stats g).length) :
    s.counterRecord g n = halfBytes ((s.stats g).getD n 0) := by
  rw [Group.length_stats s h] at hn
  cases g with
  | entry => exact absurd rfl h
  | portA | portB | local_ | mgmt =>
    replace hn := Nat.le_of_lt_succ hn
    unfold Group.top at hn
    interval_cases n <;> rfl

theorem TrunkStats.list_clearNumber (t : TrunkStats) {n : Nat} (h : n < 13) :
    (t.clearNumber n).list = t.list.set n 0 := by interval_cases n <;> rfl

theorem LocalStats.list_clearNumber (t : LocalStats) {n : Nat} (h : n < 5) :
    (t.clearNumber n).list = t.list.set n 0 := by interval_cases n <;> rfl

theorem MgmtStats.list_clearNumber (t : MgmtStats) {n : Nat} (h : n < 6) :
    (t.clearNumber n).list = t.list.set n 0 := by interval_cases n <;> rfl

/-- A statistic cleared is that number of its group, and of no other. -/
theorem State.stats_clearCounter (s : State) {g : Group} (h : g ≠ .entry) {n : Nat} (hn : n < (s.stats g).length)
    (g' : Group) : (s.clearCounter g n).stats g' = if g' = g then (s.stats g).set n 0 else s.stats g' := by
  rw [Group.length_stats s h] at hn
  by_cases e : g' = g
  · subst e
    rw [if_pos rfl]
    cases g' with
    | entry => exact absurd rfl h
    | portA | portB => exact TrunkStats.list_clearNumber _ hn
    | local_ => exact LocalStats.list_clearNumber _ hn
    | mgmt => exact MgmtStats.list_clearNumber _ hn
  · rw [if_neg e]
    cases g <;> cases g'
    case entry.entry | portA.portA | portB.portB | local_.local_ | mgmt.mgmt => exact absurd rfl e
    all_goals rfl

/-! ### Ranges -/

/-- The records of a range of a list, one after another. -/
theorem flatMap_range_getD {α β : Type} (l : List α) (d : α) (f : α → List β) (start count : Nat)
    (h : start + count ≤ l.length) :
    (List.range count).flatMap (fun i => f (l.getD (start + i) d)) = ((l.drop start).take count).flatMap f := by
  have range : (List.range count).map (fun i => l.getD (start + i) d) = (l.drop start).take count := by
    refine List.ext_getElem (by simp; omega) fun i h1 h2 => ?_
    have hi : i < count := by simpa using h1
    rw [List.getElem_map, List.getElem_range, List.getElem_take, List.getElem_drop, List.getD_eq_getElem _ _ (by omega)]
  rw [← range, List.flatMap_map]

theorem clearedRange_zero (l : List Half) (start : Nat) : clearedRange l start 0 = l := by
  simp [clearedRange]

theorem clearedRange_succ (l : List Half) {start count : Nat} (h : start + count < l.length) :
    (clearedRange l start count).set (start + count) 0 = clearedRange l start (count + 1) := by
  have hs : (l.take start).length = start := List.length_take_of_le (by omega)
  unfold clearedRange
  have head : (l.take start ++ List.replicate count (0 : Half)).length = start + count := by
    rw [List.length_append, hs, List.length_replicate]
  have tail : l.drop (start + count) = l[start + count] :: l.drop (start + count + 1) := List.drop_eq_getElem_cons h
  rw [List.set_append_right _ _ (by rw [head]), head, Nat.sub_self, tail, List.set_cons_zero, List.replicate_succ',
      ← Nat.add_assoc]
  simp

/-- What of a clear stays: everything but the statistics. -/
def State.onlyStats (s t : State) : Prop :=
  t = { s with
    trunkA := { s.trunkA with stats := t.trunkA.stats }, trunkB := { s.trunkB with stats := t.trunkB.stats }
    loc := { s.loc with stats := t.loc.stats }, mgmt := { s.mgmt with stats := t.mgmt.stats } }

theorem State.onlyStats.trans (h : s.onlyStats t) (g : t.onlyStats u) : s.onlyStats u := by
  unfold State.onlyStats at *
  rw [g, h]

theorem State.onlyStats_clearCounter (s : State) {g : Group} (h : g ≠ .entry) (n : Nat) : s.onlyStats (s.clearCounter g n) := by
  cases g
  case entry => exact absurd rfl h
  all_goals rfl

/-- A range of a group cleared, number by number (R116). -/
theorem State.clearRange_spec (s : State) {g : Group} (h : g ≠ .entry) (start count : Nat)
    (hr : start + count ≤ (s.stats g).length) :
    s.onlyStats ((List.range count).foldl (fun t i => t.clearCounter g (start + i)) s) ∧
      ((List.range count).foldl (fun t i => t.clearCounter g (start + i)) s).stats g = clearedRange (s.stats g) start count ∧
      ∀ g', g' ≠ g → ((List.range count).foldl (fun t i => t.clearCounter g (start + i)) s).stats g' = s.stats g' := by
  induction count with
  | zero => exact ⟨rfl, (clearedRange_zero _ _).symm, fun _ _ => rfl⟩
  | succ count ih =>
    obtain ⟨only, own, other⟩ := ih (by omega)
    rw [List.range_succ, List.foldl_append, List.foldl_cons, List.foldl_nil]
    generalize (List.range count).foldl (fun t i => t.clearCounter g (start + i)) s = z at *
    have len : (z.stats g).length = (s.stats g).length := (Group.length_stats z h).trans (Group.length_stats s h).symm
    have cleared := z.stats_clearCounter h (n := start + count) (by rw [len]; omega)
    refine ⟨only.trans (z.onlyStats_clearCounter h _), ?_, fun g' hg => ?_⟩
    · rw [cleared, if_pos rfl, own, clearedRange_succ _ (by omega)]
    · rw [cleared, if_neg hg, other g' hg]

/-- A range of the entry counters cleared, number by number. -/
theorem State.clearEntries_spec (s : State) (start count : Nat) :
    (∃ cs, (List.range count).foldl (fun t i => t.clearCounter .entry (start + i)) s = { s with counters := cs }) ∧
      ∀ n, ((List.range count).foldl (fun t i => t.clearCounter .entry (start + i)) s).counter n =
        if start ≤ n ∧ n < start + count then { frames := 0, bytes := 0 } else s.counter n := by
  induction count with
  | zero => exact ⟨⟨_, rfl⟩, fun n => (if_neg (by omega)).symm⟩
  | succ count ih =>
    obtain ⟨⟨cs, only⟩, each⟩ := ih
    rw [List.range_succ, List.foldl_append, List.foldl_cons, List.foldl_nil]
    generalize (List.range count).foldl (fun t i => t.clearCounter .entry (start + i)) s = z at *
    refine ⟨⟨_, by rw [State.clearCounter, State.setCounter, only]⟩, fun n => ?_⟩
    rw [State.clearCounter, State.counter_setCounter, each]
    by_cases hn : n = start + count
    · rw [if_pos hn, if_pos (by omega)]
      rfl
    · rw [if_neg hn]
      by_cases hr : start ≤ n ∧ n < start + count
      · rw [if_pos hr, if_pos (by omega)]
      · rw [if_neg hr, if_neg (by omega)]

/-! ### The row -/

/-- The row of a READ_COUNTERS by its clear flag (log 7). -/
theorem exec_readCounters_row {i : Instr} {clear : Byte}
    (hi : clear = 1 ∧ i = .readCountersClear ∨ clear ≠ 1 ∧ i = .readCounters) (s : State) :
    ∃ takes : Cmd → Bool, exec i s = .next (runCommand takes bodyReadCounters s) ∧
      ∀ c : Cmd, hasCode 0x0D c = true → byteAt c.args 3 = clear → takes c = true := by
  rcases hi with ⟨rfl, rfl⟩ | ⟨hc, rfl⟩
  · refine ⟨_, rfl, fun c h h3 => ?_⟩
    rw [h, asksClear, h3]
    rfl
  · refine ⟨_, rfl, fun c h h3 => ?_⟩
    rw [h, asksClear, h3, beq_false_of_ne hc]
    rfl

/-- What READ_COUNTERS checks, in order (R115, R116, R144). -/
theorem bodyReadCounters_eq {call : Call} {group start count clear : Byte} (h : call.args = [group, start, count, clear])
    (s : State) : bodyReadCounters call s =
      match groupOf group with
      | none => .fail .badValue
      | some g =>
        if 1 < clear.toNat then .fail .badValue
        else if count.toNat = 0 then .fail .badValue
        else if g.top < start.toNat + count.toNat - 1 then .fail .badIndex
        else if clear = 1 ∧ s.lockRefuses call.requester = true then .fail .locked
        else
          .pass ((List.range count.toNat).flatMap (fun i => s.counterRecord g (start.toNat + i))) none
            (if clear = 1 then (List.range count.toNat).foldl (fun t i => t.clearCounter g (start.toNat + i)) s else s) := by
  unfold bodyReadCounters Call.arg
  rw [h]
  rfl

/-- A READ_COUNTERS in range, by a requester the lock admits where it clears. -/
theorem bodyReadCounters_pass {call : Call} {group start count clear : Byte} {g : Group}
    (h : call.args = [group, start, count, clear]) (hg : groupOf group = some g) (hc : clear = 0 ∨ clear = 1)
    (h0 : count ≠ 0) (hr : start.toNat + count.toNat ≤ g.top + 1)
    (hl : clear = 1 → s.lockRefuses call.requester = false) :
    bodyReadCounters call s =
      .pass ((List.range count.toNat).flatMap (fun i => s.counterRecord g (start.toNat + i))) none
        (if clear = 1 then (List.range count.toNat).foldl (fun t i => t.clearCounter g (start.toNat + i)) s else s) := by
  have n0 := (Byte.ne_zero_iff count).mp h0
  rw [bodyReadCounters_eq h, hg]
  dsimp only
  rw [if_neg (by rcases hc with rfl | rfl <;> decide), if_neg n0, if_neg (by omega),
    if_neg (fun hx => by rw [hl hx.1] at hx; exact absurd hx.2 Bool.false_ne_true)]

/-- A group code names the group whose statistics stand under it. -/
theorem groupOf_statistics {b : Byte} (h1 : 1 ≤ b.toNat) (h4 : b.toNat ≤ 4) :
    ∃ g, groupOf b = some g ∧ g ≠ .entry ∧ ∀ b', b' ≠ b → groupOf b' ≠ some g := by
  have only : ∀ b', b'.toNat ≤ 4 ∨ groupOf b' = none := fun b' =>
    (Nat.lt_or_ge 4 b'.toNat).symm.imp id groupOf_eq_none
  rcases group_cases h4 with rfl | rfl | rfl | rfl | rfl
  case inl => exact absurd h1 (by decide)
  all_goals
    refine ⟨_, rfl, nofun, fun b' hb => ?_⟩
    rcases only b' with h | h
    · rcases group_cases h with rfl | rfl | rfl | rfl | rfl
      all_goals first | exact absurd rfl hb | exact nofun
    · rw [h]
      exact nofun

/-- The data of a READ_COUNTERS in a group of statistics. -/
theorem State.counterRecords_eq (s : State) {g : Group} (h : g ≠ .entry) {start count : Nat}
    (hr : start + count ≤ (s.stats g).length) :
    (List.range count).flatMap (fun i => s.counterRecord g (start + i)) =
      (((s.stats g).drop start).take count).flatMap (fun x => beBytes 2 x.toNat) := by
  rw [← flatMap_range_getD (s.stats g) 0 _ start count hr]
  refine List.flatMap_congr fun i hi => ?_
  rw [beBytes_two]
  exact s.counterRecord_eq h (by have := List.mem_range.mp hi; omega)

/-- Settles O35. -/
theorem readCountersAndClear : Obligations.ReadCountersAndClear := by
  intro s e c rest group start count clear h hargs hf
  have code := hasCode_of_formed hf
  have flag : byteAt c.args 3 = clear := by rw [hargs]; rfl
  refine ⟨fun hg ha h0 hr => ?_, fun data h1 h4 ha h0 hr hdata => ?_, fun i hi => ?_⟩
  · subst hg
    have len : ((List.range count.toNat).flatMap (fun i => counterBytes (s.counter (start.toNat + i)))).length =
        10 * count.toNat := by
      rw [length_flatMap_const _ 10 (fun a => rfl), List.length_range]
    refine ⟨fun hc => ?_, fun hc hl => ?_⟩
    · subst hc
      obtain ⟨takes, ex, ht⟩ := exec_readCounters_row (clear := 0) (.inr ⟨by decide, rfl⟩) s
      have pass := bodyReadCounters_pass (s := s) (g := .entry)
        (call := { requester := e.requester, args := c.args, isLast := rest.isEmpty }) hargs rfl (.inl rfl) h0 hr nofun
      exact ex.trans (congrArg Host.Outcome.next (runCommand_pass h ha (ht c code flag) pass len.le))
    · subst hc
      obtain ⟨takes, ex, ht⟩ := exec_readCounters_row (clear := 1) (.inl ⟨rfl, rfl⟩) s
      obtain ⟨⟨cs, only⟩, each⟩ := s.clearEntries_spec start.toNat count.toNat
      have pass := bodyReadCounters_pass (s := s) (g := .entry)
        (call := { requester := e.requester, args := c.args, isLast := rest.isEmpty }) hargs rfl (.inr rfl) h0 hr (fun _ => hl)
      exact ⟨_, ex.trans (congrArg Host.Outcome.next (runCommand_pass h ha (ht c code flag) pass len.le)),
          by rw [if_pos rfl, only], each⟩
  · obtain ⟨g, hg, hne, other⟩ := groupOf_statistics h1 h4
    have stats : ∀ u : State, u.statistics group = u.stats g := fun u => by rw [u.statistics_eq, hg]; rfl
    rw [stats] at hr hdata
    have top : start.toNat + count.toNat ≤ g.top + 1 := by rw [← Group.length_stats s hne]; exact hr
    have records := s.counterRecords_eq hne hr
    rw [← hdata] at records
    have len : data.length ≤ 2 * count.toNat := by
      rw [hdata, length_flatMap_const _ 2 (fun a => rfl)]
      have := List.length_take_le count.toNat ((s.stats g).drop start.toNat)
      omega
    refine ⟨fun hc => ?_, fun hc hl => ?_⟩
    · subst hc
      obtain ⟨takes, ex, ht⟩ := exec_readCounters_row (clear := 0) (.inr ⟨by decide, rfl⟩) s
      have pass := bodyReadCounters_pass (s := s)
        (call := { requester := e.requester, args := c.args, isLast := rest.isEmpty }) hargs hg (.inl rfl) h0 top nofun
      rw [records] at pass
      exact ex.trans (congrArg Host.Outcome.next (runCommand_pass h ha (ht c code flag) pass len))
    · subst hc
      obtain ⟨takes, ex, ht⟩ := exec_readCounters_row (clear := 1) (.inl ⟨rfl, rfl⟩) s
      have pass := bodyReadCounters_pass (s := s)
        (call := { requester := e.requester, args := c.args, isLast := rest.isEmpty }) hargs hg (.inr rfl) h0 top (fun _ => hl)
      rw [records] at pass
      obtain ⟨only, own, others⟩ := s.clearRange_spec hne start.toNat count.toNat hr
      refine ⟨_, ex.trans (congrArg Host.Outcome.next (runCommand_pass h ha (ht c code flag) pass len)), ?_, fun b hb => ?_, only⟩
      · rw [stats, stats]
        exact own
      · rw [State.statistics_eq, State.statistics_eq]
        cases hgb : groupOf b with
        | none => rfl
        | some g' => exact others g' (fun eg => other b hb (by rw [hgb, eg]))
  · obtain ⟨takes, ex, ht⟩ := exec_readCounters_row hi s
    have fails : ∀ r, bodyReadCounters { requester := e.requester, args := c.args, isLast := rest.isEmpty } s = .fail r →
        exec i s = .next (s.answerCmd e c rest r [] none) := fun r hr =>
      ex.trans (congrArg Host.Outcome.next (runCommand_fail_of_formed h hf (ht c code flag) hr))
    refine ⟨fun hbad => fails _ ?_, fun hcl hn hrange => fails _ ?_⟩ <;> rw [bodyReadCounters_eq hargs]
    · cases hg : groupOf group with
      | none => rfl
      | some g =>
        dsimp only
        rcases hbad with hb | hb | hb
        · rw [groupOf_eq_none hb] at hg
          exact absurd hg.symm (Option.some_ne_none g)
        · rw [if_pos hb]
        · subst hb
          split
          · rfl
          · exact if_pos rfl
    · have n0 := (Byte.ne_zero_iff count).mp hn
      obtain ⟨g, hg, hover⟩ : ∃ g, groupOf group = some g ∧ g.top < start.toNat + count.toNat - 1 := by
        rcases hrange with ⟨rfl, hr⟩ | ⟨h1, h4, hr⟩
        · exact ⟨.entry, rfl, by show 63 < _; omega⟩
        · obtain ⟨g, hg, hne, -⟩ := groupOf_statistics h1 h4
          rw [State.statistics_eq, hg, Option.map_some, Option.getD_some, Group.length_stats s hne] at hr
          exact ⟨g, hg, by omega⟩
      rw [hg]
      dsimp only
      rw [if_neg (by omega), if_neg n0, if_pos hover]

end Sys2Proof.Machine

end

section
/-! What an answered command leaves, BAD_VALUE and TOO_LONG on every row of a request (R133, R150, R151). -/

namespace Sys2Proof.Machine

variable {s t u : State}

/-! ### The answer of a body does not depend on the executor -/

/-- What a verdict answers: a failing result, or the data of an OK. -/
def Verdict.answer : Verdict → Except CmdResult (List Byte)
  | .fail r => .error r
  | .pass data _ _ => .ok data

/-- A body of checks that answers the same whatever the executor holds. -/
def Unheeding (body : Call → State → Verdict) : Prop :=
  ∀ (c : Call) (s : State) (x : Executor), (body c (s.setExecutor x)).answer = (body c s).answer

theorem unheeding_readBank (maxCount top : Nat) (record : Bank → Nat → List Byte) :
    Unheeding (fun c s => readBank c s maxCount top record) := by
  intro c s x
  have bank : (s.setExecutor x).bankOf (c.arg 0) = s.bankOf (c.arg 0) := rfl
  dsimp only
  unfold readBank
  rw [bank]
  cases s.bankOf (c.arg 0) with
  | none => rfl
  | some b => simp only [apply_ite Verdict.answer]; rfl

theorem unheeding_bodyReadMeter : Unheeding bodyReadMeter := by
  intro c s x
  unfold bodyReadMeter
  simp only [apply_ite Verdict.answer]
  rfl

theorem unheeding_bodyWriteMeter : Unheeding bodyWriteMeter := by
  intro c s x
  unfold bodyWriteMeter
  cases controlOf (c.arg 1) with
  | none => rfl
  | some y => simp only [apply_ite Verdict.answer]; rfl

theorem unheeding_bodyReadCounters : Unheeding bodyReadCounters := by
  intro c s x
  unfold bodyReadCounters
  cases groupOf (c.arg 0) with
  | none => rfl
  | some g =>
    have records : ∀ n, (s.setExecutor x).counterRecord g n = s.counterRecord g n := fun n => by cases g <;> rfl
    simp only [apply_ite Verdict.answer, records]
    rfl

theorem unheeding_bodyReadParam : Unheeding bodyReadParam := by
  intro c s x
  have value : (s.setExecutor x).params = s.params := rfl
  unfold bodyReadParam
  rw [value]
  split <;> rfl

theorem unheeding_writeChecked (effect : State → Nat → Nat → State) : Unheeding (writeChecked effect) := by
  intro c s x
  unfold writeChecked
  simp only [apply_ite Verdict.answer]
  rfl

theorem unheeding_bodyRelease (d : Disposition) : Unheeding (bodyRelease d) := by
  intro c s x
  unfold bodyRelease
  cases trunkPortOf (c.arg 0) with
  | none => rfl
  | some p => simp only [apply_ite Verdict.answer]; cases p <;> rfl

theorem unheeding_bodyReadEvents : Unheeding bodyReadEvents := by
  intro c s x
  unfold bodyReadEvents
  simp only [apply_ite Verdict.answer]
  rfl

theorem unheeding_bodyResetNode : Unheeding bodyResetNode := by
  intro c s x
  unfold bodyResetNode
  cases scopeOf (c.arg 0) with
  | none => rfl
  | some y => simp only [apply_ite Verdict.answer]; rfl

theorem State.sessionCheck_setExecutor (s : State) (x : Executor) (q : Station) (w : Bool) :
    (s.setExecutor x).sessionCheck q w = s.sessionCheck q w := rfl

theorem unheeding_bodyWriteSteer : Unheeding bodyWriteSteer := by
  intro c s x
  unfold bodyWriteSteer
  rw [State.sessionCheck_setExecutor]
  cases s.sessionCheck c.requester true with
  | some r => rfl
  | none => cases decodeEntry (c.args.drop 1) <;> rfl

theorem unheeding_bodyWriteChmap : Unheeding bodyWriteChmap := by
  intro c s x
  unfold bodyWriteChmap
  rw [State.sessionCheck_setExecutor]
  cases s.sessionCheck c.requester true with
  | some r => rfl
  | none => simp only [apply_ite Verdict.answer]; rfl

theorem unheeding_bodyOpenEdit : Unheeding bodyOpenEdit := by
  intro c s x
  have session : (s.setExecutor x).session = s.session := rfl
  unfold bodyOpenEdit
  rw [session]
  cases s.session.state with
  | closed => rfl
  | opened | syncing => simp only [apply_ite Verdict.answer]; rfl

theorem unheeding_bodyCloseEdit : Unheeding bodyCloseEdit := by
  intro c s x
  unfold bodyCloseEdit
  rw [State.sessionCheck_setExecutor]
  cases s.sessionCheck c.requester false <;> rfl

theorem unheeding_bodySync : Unheeding bodySync := by
  intro c s x
  unfold bodySync
  rw [State.sessionCheck_setExecutor]
  cases s.sessionCheck c.requester true <;> rfl

/-! ### A failing check answers a result other than OK -/

/-- A body of checks whose failures are not OK. -/
def Honest (body : Call → State → Verdict) : Prop := ∀ (c : Call) (s : State), body c s ≠ .fail .ok

theorem State.sessionCheck_ne_ok (s : State) (q : Station) (w : Bool) : s.sessionCheck q w ≠ some .ok := by
  unfold State.sessionCheck
  grind

theorem honest_readBank (m k : Nat) (f : Bank → Nat → List Byte) : Honest (fun c s => readBank c s m k f) := by
  intro c s
  grind [readBank, reads]

theorem honest_bodyInfo : Honest bodyInfo := by
  intro c s
  grind [bodyInfo, reads]

theorem honest_bodyEditStatus : Honest bodyEditStatus := by
  intro c s
  grind [bodyEditStatus, reads]

theorem honest_bodyReadMeter : Honest bodyReadMeter := by
  intro c s
  grind [bodyReadMeter, reads]

theorem honest_bodyWriteMeter : Honest bodyWriteMeter := by
  intro c s
  grind [bodyWriteMeter, done]

theorem honest_bodyReadCounters : Honest bodyReadCounters := by
  intro c s
  grind [bodyReadCounters]

theorem honest_bodyReadParam : Honest bodyReadParam := by
  intro c s
  grind [bodyReadParam, reads]

theorem honest_writeChecked (effect : State → Nat → Nat → State) : Honest (writeChecked effect) := by
  intro c s
  grind [writeChecked, done]

theorem honest_bodyRelease (d : Disposition) : Honest (bodyRelease d) := by
  intro c s
  grind [bodyRelease, done]

theorem honest_bodyReadEvents : Honest bodyReadEvents := by
  intro c s
  grind [bodyReadEvents]

theorem honest_bodyResetNode : Honest bodyResetNode := by
  intro c s
  grind [bodyResetNode]

theorem honest_bodyWriteSteer : Honest bodyWriteSteer := by
  intro c s
  grind [bodyWriteSteer, done, State.sessionCheck_ne_ok]

theorem honest_bodyWriteChmap : Honest bodyWriteChmap := by
  intro c s
  grind [bodyWriteChmap, done, State.sessionCheck_ne_ok]

theorem honest_bodyOpenEdit : Honest bodyOpenEdit := by
  intro c s
  grind [bodyOpenEdit, done]

theorem honest_bodyCloseEdit : Honest bodyCloseEdit := by
  intro c s
  grind [bodyCloseEdit, done, State.sessionCheck_ne_ok]

theorem honest_bodySync : Honest bodySync := by
  intro c s
  grind [bodySync, done, State.sessionCheck_ne_ok]

/-! ### The rows of a request -/

/-- A row that takes a command of a request runs its own checks on the commands it takes. -/
def RequestRow (i : Instr) (body : Call → State → Verdict) : Prop :=
  Unheeding body ∧ Honest body ∧ ∃ takes : Cmd → Bool, (∀ c, takes c = rowTakes i c) ∧
    ∀ s, exec i s = .next (runCommand takes body s)

theorem disposition_named (d : Disposition) (c : Cmd) (b : Byte) (hb : b.toNat = d.code) :
    namesDisposition d c = (byteAt c.args 1 == b) := by
  unfold namesDisposition
  rw [← hb, Bool.eq_iff_iff, beq_iff_eq, beq_iff_eq, BitVec.toNat_inj]

/-- Every row of a request but COMMIT is one. -/
theorem requestRow_of_mem {i : Instr} (h : i ∈ requestCommands) (hc : i ≠ .commit) : ∃ body, RequestRow i body := by
  have plain : ∀ (i : Instr) (body : Call → State → Verdict) (code : Byte), Unheeding body →
      Honest body → (∀ c, rowTakes i c = (c.code == code && true)) → (∀ s, exec i s = .next (runCommand (hasCode code) body s)) →
      ∃ body, RequestRow i body := fun i body code hu hh ht hx =>
    ⟨body, hu, hh, hasCode code, fun c => by rw [ht, Bool.and_true]; rfl, hx⟩
  simp only [requestCommands, List.mem_cons, List.not_mem_nil, or_false] at h
  rcases h with rfl | rfl | rfl | rfl | rfl | rfl | rfl | rfl | rfl | rfl | rfl | rfl | rfl | rfl | rfl | rfl | rfl | rfl |
    rfl | rfl | rfl | rfl | rfl
  · exact plain .info bodyInfo 0x01 (fun _ _ _ => rfl) honest_bodyInfo (fun _ => rfl) (fun _ => rfl)
  · exact plain .readSteer bodyReadSteer 0x02 (unheeding_readBank _ _ _) (honest_readBank _ _ _) (fun _ => rfl) (fun _ => rfl)
  · exact plain .writeSteer bodyWriteSteer 0x03 unheeding_bodyWriteSteer honest_bodyWriteSteer (fun _ => rfl) (fun _ => rfl)
  · exact plain .readChmap bodyReadChmap 0x04 (unheeding_readBank _ _ _) (honest_readBank _ _ _) (fun _ => rfl) (fun _ => rfl)
  · exact plain .writeChmap bodyWriteChmap 0x05 unheeding_bodyWriteChmap honest_bodyWriteChmap (fun _ => rfl) (fun _ => rfl)
  · exact plain .openEdit bodyOpenEdit 0x06 unheeding_bodyOpenEdit honest_bodyOpenEdit (fun _ => rfl) (fun _ => rfl)
  · exact plain .closeEdit bodyCloseEdit 0x07 unheeding_bodyCloseEdit honest_bodyCloseEdit (fun _ => rfl) (fun _ => rfl)
  · exact plain .sync bodySync 0x08 unheeding_bodySync honest_bodySync (fun _ => rfl) (fun _ => rfl)
  · exact absurd rfl hc
  · exact plain .editStatus bodyEditStatus 0x0A (fun _ _ _ => rfl) honest_bodyEditStatus (fun _ => rfl) (fun _ => rfl)
  · exact plain .readMeter bodyReadMeter 0x0B unheeding_bodyReadMeter honest_bodyReadMeter (fun _ => rfl) (fun _ => rfl)
  · exact plain .writeMeter bodyWriteMeter 0x0C unheeding_bodyWriteMeter honest_bodyWriteMeter (fun _ => rfl) (fun _ => rfl)
  · exact ⟨_, unheeding_bodyReadCounters, honest_bodyReadCounters, _, fun _ => rfl, fun _ => rfl⟩
  · exact ⟨_, unheeding_bodyReadCounters, honest_bodyReadCounters, _, fun _ => rfl, fun _ => rfl⟩
  · exact plain .readParam bodyReadParam 0x0E unheeding_bodyReadParam honest_bodyReadParam (fun _ => rfl) (fun _ => rfl)
  · refine ⟨_, unheeding_writeChecked State.writeParam, honest_writeChecked _, _, fun c => ?_, fun _ => rfl⟩
    simp only [hasCode, namesEnable, namesMask, rowTakes, requestCode, bne, Bool.not_or, Bool.and_assoc]
  · exact ⟨_, unheeding_writeChecked State.writeEnable, honest_writeChecked _, _, fun _ => rfl, fun _ => rfl⟩
  · exact ⟨_, unheeding_writeChecked State.writeMask, honest_writeChecked _, _, fun _ => rfl, fun _ => rfl⟩
  · refine ⟨_, unheeding_bodyRelease .retry, honest_bodyRelease _, _, fun c => ?_, fun _ => rfl⟩
    rw [disposition_named .drop c 2 rfl, disposition_named .flush c 3 rfl]
    simp only [hasCode, rowTakes, requestCode, bne, Bool.and_assoc]
  · refine ⟨_, unheeding_bodyRelease .drop, honest_bodyRelease _, _, fun c => ?_, fun _ => rfl⟩
    rw [disposition_named .drop c 2 rfl]
    rfl
  · refine ⟨_, unheeding_bodyRelease .flush, honest_bodyRelease _, _, fun c => ?_, fun _ => rfl⟩
    rw [disposition_named .flush c 3 rfl]
    rfl
  · exact plain .readEvents bodyReadEvents 0x11 unheeding_bodyReadEvents honest_bodyReadEvents (fun _ => rfl) (fun _ => rfl)
  · exact plain .resetNode bodyResetNode 0x12 unheeding_bodyResetNode honest_bodyResetNode (fun _ => rfl) (fun _ => rfl)

/-! ### The answer itself -/

theorem State.answerCmd_whole (s : State) (e : Execution) (c : Cmd) (rest : List Cmd) (res : CmdResult) (data : List Byte)
    (reset : Option ResetScope) : s.answerCmd e c rest res data reset =
      { s with
        mgmt := { s.mgmt with executor := .executing (e.answered c rest res data reset) }
        session :=
          if s.session.state ≠ .closed ∧ s.session.owner = some e.requester ∧ s.session.swapRequested = false then
            { s.session with timer := some s.params.editTimeout }
          else s.session } := by
  unfold State.answerCmd State.touchTimer
  dsimp only
  split <;> rfl

/-- The first entry a command's answer adds to an empty response. -/
theorem Execution.head_answered (e : Execution) (hd : e.done = []) (c : Cmd) (rest : List Cmd) (res : CmdResult)
    (data : List Byte) (reset : Option ResetScope) :
    (e.answered c rest res data reset).done.head? = some { code := c.code, result := res, data := data } := by
  unfold Execution.answered
  dsimp only
  split
  · next h => rw [hd, h]; rfl
  · rw [hd]; rfl

/-- Two answers to an empty response that leave the same state answer alike. -/
theorem answerCmd_inj {e : Execution} (hd : e.done = []) {c : Cmd} {rest : List Cmd} {res res' : CmdResult}
    {data data' : List Byte} {reset reset' : Option ResetScope}
    (h : s.answerCmd e c rest res data reset = t.answerCmd e c rest res' data' reset') : res = res' ∧ data = data' := by
  have executor := congrArg (fun u : State => u.mgmt.executor) h
  rw [State.answerCmd_whole, State.answerCmd_whole] at executor
  have entry := congrArg (fun x : Execution => x.done.head?) (Executor.executing.inj executor)
  rw [e.head_answered hd, e.head_answered hd] at entry
  have fields := Option.some.inj entry
  exact ⟨congrArg CmdEntry.result fields, congrArg CmdEntry.data fields⟩

/-! ### A row that takes its command -/

section row

variable {i : Instr} {body : Call → State → Verdict} {e : Execution} {c : Cmd} {rest : List Cmd}

theorem RequestRow.idle (hr : RequestRow i body) (h : s.standsAt e c rest) (ht : rowTakes i c = false) :
    exec i s = .next s := by
  obtain ⟨-, -, takes, same, run⟩ := hr
  rw [run, runCommand_other h ((same c).trans ht)]

theorem runCommand_verdict {takes : Cmd → Bool} (h : s.standsAt e c rest) (ht : takes c = true) :
    runCommand takes body s = match verdictOf e c rest body s with
      | .fail r => s.answerCmd e c rest r [] none
      | .pass data reset s1 => s1.answerCmd e c rest .ok data reset := by
  unfold runCommand
  rw [h.current]
  exact if_pos ht

theorem RequestRow.malformed (hr : RequestRow i body) (h : s.standsAt e c rest) (ht : rowTakes i c = true)
    (hl : argLength c.code ≠ some c.args.length) : exec i s = .next (s.answerCmd e c rest .badValue [] none) := by
  obtain ⟨-, -, takes, same, run⟩ := hr
  rw [run, runCommand_verdict h ((same c).trans ht), verdictOf, if_pos hl]

/-- A command answered OK to an empty response passed its own checks with the data answered. -/
theorem runCommand_ok {takes : Cmd → Bool} (hb : Honest body) (h : s.standsAt e c rest) (hd : e.done = [])
    (ht : takes c = true) {data : List Byte} {reset : Option ResetScope}
    (hx : runCommand takes body s = t.answerCmd e c rest .ok data reset) :
    argLength c.code = some c.args.length ∧
      ∃ reset' t', body { requester := e.requester, args := c.args, isLast := rest.isEmpty } s = .pass data reset' t' := by
  rw [runCommand_verdict h ht] at hx
  unfold verdictOf at hx
  split at hx
  · next r hv =>
    obtain ⟨rfl, rfl⟩ := answerCmd_inj hd hx
    split at hv
    · exact absurd hv (by simp)
    · split at hv
      · next r' hf => exact absurd (hf.trans hv) (hb _ _)
      · split at hv <;> exact absurd hv (by simp)
  · next d r' t' hv =>
    obtain ⟨-, rfl⟩ := answerCmd_inj hd hx
    split at hv
    · exact absurd hv (by simp)
    · next hl =>
      refine ⟨not_not.mp hl, ?_⟩
      split at hv
      · exact absurd hv (by simp)
      · next hp => split at hv <;> cases hv; exact ⟨_, _, hp⟩

/-- A command that an empty response would answer OK, in one that its data no longer fit (R151). -/
theorem RequestRow.tooLong (hr : RequestRow i body) (h : s.standsAt e c rest) (ht : rowTakes i c = true)
    {e0 : Execution} (he : e0 = { e with count := 1, done := [] }) {data : List Byte} {reset : Option ResetScope}
    (hx : exec i (s.setExecutor (.executing e0)) = .next (t.answerCmd e0 c rest .ok data reset))
    (hu : 1024 < e.used + data.length) : exec i s = .next (s.answerCmd e c rest .tooLong [] none) := by
  obtain ⟨unheeding, honest, takes, same, run⟩ := hr
  have todo := h.2
  have stands : (s.setExecutor (.executing e0)).standsAt e0 c rest := ⟨rfl, by rw [he]; exact todo⟩
  rw [run] at hx
  obtain ⟨hl, reset', t', hp⟩ := runCommand_ok honest stands (by rw [he]) ((same c).trans ht) (Host.Outcome.next.inj hx)
  have asked : e0.requester = e.requester := by rw [he]
  rw [asked] at hp
  have answers := unheeding { requester := e.requester, args := c.args, isLast := rest.isEmpty } s (.executing e0)
  rw [hp] at answers
  rw [run, runCommand_verdict h ((same c).trans ht), verdictOf, if_neg (not_not.mpr hl)]
  cases hb : body { requester := e.requester, args := c.args, isLast := rest.isEmpty } s with
  | fail r =>
    rw [hb] at answers
    cases answers
  | pass d r1 t1 =>
    rw [hb] at answers
    have data_ : data = d := Except.ok.inj answers
    dsimp only
    rw [← data_, if_neg (by omega)]

end row

/-! ### COMMIT, answered when it completes (R141) -/

theorem takeCommit_eq {e : Execution} {c : Cmd} {rest : List Cmd} (h : s.standsAt e c rest) (ht : hasCode 0x09 c = true)
    (hw : s.session.swapRequested = false) : s.takeCommit = match verdictOf e c rest bodyCommit s with
      | .fail r => s.answerCmd e c rest r [] none
      | .pass _ _ s1 => s1 := by
  unfold State.takeCommit
  rw [h.current]
  exact if_pos (by rw [ht, hw]; rfl)

theorem honest_bodyCommit : Honest bodyCommit := by
  intro c s
  grind [bodyCommit, State.sessionCheck_ne_ok]

/-- A COMMIT is never answered OK when it is taken. -/
theorem takeCommit_not_ok {e : Execution} {c : Cmd} {rest : List Cmd} (h : s.standsAt e c rest) (hd : e.done = [])
    (ht : hasCode 0x09 c = true) (hw : s.session.swapRequested = false) (data : List Byte) (reset : Option ResetScope) :
    s.takeCommit ≠ t.answerCmd e c rest .ok data reset := by
  intro hx
  rw [takeCommit_eq h ht hw] at hx
  unfold verdictOf at hx
  split at hx
  · next r hv =>
    obtain ⟨rfl, -⟩ := answerCmd_inj hd hx
    split at hv
    · exact absurd hv (by simp)
    · split at hv
      · next r' hf => exact absurd (hf.trans hv) (honest_bodyCommit _ _)
      · split at hv <;> exact absurd hv (by simp)
  · next d r' t' hv =>
    have kept : t'.mgmt = s.mgmt := by
      split at hv
      · exact absurd hv (by simp)
      · split at hv
        · exact absurd hv (by simp)
        · next hp =>
          split at hv <;> cases hv
          unfold bodyCommit at hp
          split at hp <;> cases hp
          rfl
    have executor := congrArg (fun u : State => u.mgmt.executor) hx
    rw [kept, State.answerCmd_whole, h.1] at executor
    have entry := congrArg (fun x : Execution => x.done.head?) (Executor.executing.inj executor)
    rw [e.head_answered hd, hd] at entry
    exact absurd entry (by simp)

/-- Settles O36. -/
theorem answerEndsCommand : Obligations.AnswerEndsCommand := by
  refine ⟨fun s e c rest res data reset => ?_, fun i hi s e c rest h => ?_⟩
  · rw [State.answerCmd_whole]
    unfold Execution.answered
    by_cases hres : res = .ok
    · subst hres
      rfl
    · dsimp only
      rw [if_neg hres, if_neg hres]
      rfl
  · by_cases hc : i = .commit
    · subst hc
      have taken : rowTakes .commit c = hasCode 0x09 c := Bool.and_true _
      refine ⟨fun ht => congrArg Host.Outcome.next ?_, fun ht hw => ?_⟩
      · unfold State.takeCommit
        rw [h.current]
        exact if_neg (by rw [← taken, ht]; exact Bool.false_ne_true)
      · rw [taken] at ht
        have run : exec .commit s = .next s.takeCommit := rfl
        rw [run, takeCommit_eq h ht (hw rfl)]
        refine ⟨fun hl => ?_, fun e0 s0 t data reset he hs hx _ => ?_, fun _ hl hs ho hu => ?_⟩
        · rw [verdictOf, if_pos hl]
        · refine absurd (Host.Outcome.next.inj hx) (takeCommit_not_ok ⟨?_, ?_⟩ (by rw [he]) ht ?_ data reset)
          · rw [hs]
          · rw [he]; exact h.2
          · rw [hs]; exact hw rfl
        · rw [verdictOf, if_neg (not_not.mpr hl)]
          unfold bodyCommit
          rw [sessionCheck_opened hs ho]
          exact congrArg Host.Outcome.next (by
            dsimp only
            rw [if_neg (by rw [halfBytes_length]; omega)])
    · obtain ⟨body, hr⟩ := requestRow_of_mem hi hc
      refine ⟨fun ht => hr.idle h ht, fun ht _ => ⟨fun hl => hr.malformed h ht hl, fun e0 s0 t data reset he hs hx hu => ?_,
        fun hcommit => absurd hcommit hc⟩⟩
      subst hs
      exact hr.tooLong h ht he hx hu

end Sys2Proof.Machine

end

section
/-! The refusals of the locked commands and of the session commands (R136 to R144). -/

namespace Sys2Proof.Machine

variable {s t u : State}

theorem RequestRow.refused {i : Instr} {body : Call → State → Verdict} {e : Execution} {c : Cmd} {rest : List Cmd}
    {code : Byte} {r : CmdResult} (hr : RequestRow i body) (h : s.standsAt e c rest) (hf : c.formed code)
    (ht : rowTakes i c = true)
    (hb : body { requester := e.requester, args := c.args, isLast := rest.isEmpty } s = .fail r) :
    exec i s = .next (s.answerCmd e c rest r [] none) := by
  obtain ⟨-, -, takes, same, run⟩ := hr
  rw [run, runCommand_fail_of_formed h hf ((same c).trans ht) hb]

/-- The checks of a WRITE_PARAM that fail, the first deciding (R156, R144). -/
theorem writeChecked_fails (effect : State → Nat → Nat → State) {call : Call} {n hi lo : Byte}
    (h : call.args = [n, hi, lo]) :
    (n = 0 ∨ 21 < n.toNat → writeChecked effect call s = .fail .badIndex) ∧
      (n ≠ 0 → n.toNat ≤ 21 → paramValid n.toNat (half hi lo).toNat = false →
        writeChecked effect call s = .fail .badValue) ∧
      (n ≠ 0 → n.toNat ≤ 21 → paramValid n.toNat (half hi lo).toNat = true → s.lockRefuses call.requester = true →
        writeChecked effect call s = .fail .locked) := by
  have a0 : call.arg 0 = n := by rw [Call.arg, h]; rfl
  have a1 : halfAt call.args 1 = half hi lo := by rw [h]; rfl
  have zero := Byte.ne_zero_iff n
  unfold writeChecked
  rw [a0, a1]
  refine ⟨fun hbad => if_pos (hbad.imp (fun e => by rw [e]; rfl) id), fun h0 h21 hv => ?_, fun h0 h21 hv hl => ?_⟩
  · rw [if_neg (by have := zero.mp h0; omega), hv]
    rfl
  · rw [if_neg (by have := zero.mp h0; omega), hv, hl]
    rfl

/-- The checks of a WRITE_METER that fail, the first deciding (R111, R144). -/
theorem bodyWriteMeter_fails {call : Call} {index control r1 r0 b1 b0 : Byte}
    (h : call.args = [index, control, r1, r0, b1, b0]) :
    (31 < index.toNat → bodyWriteMeter call s = .fail .badIndex) ∧
      (index.toNat ≤ 31 → controlOf control = none → bodyWriteMeter call s = .fail .badValue) ∧
      (index.toNat ≤ 31 → controlOf control ≠ none → s.lockRefuses call.requester = true →
        bodyWriteMeter call s = .fail .locked) := by
  have a0 : call.arg 0 = index := by rw [Call.arg, h]; rfl
  have a1 : call.arg 1 = control := by rw [Call.arg, h]; rfl
  unfold bodyWriteMeter
  rw [a0, a1]
  refine ⟨fun hi => if_pos hi, fun hi hc => ?_, fun hi hc hl => ?_⟩
  · rw [if_neg (by omega), hc]
  · rw [if_neg (by omega)]
    cases hx : controlOf control with
    | none => exact absurd hx hc
    | some y =>
      dsimp only
      rw [hl]
      rfl

/-- The checks of a RELEASE_PORT that fail, the first deciding (R80, R144). -/
theorem bodyRelease_fails (x : Disposition) {call : Call} {port d : Byte} (h : call.args = [port, d]) :
    (trunkPortOf port = none ∨ d.toNat ≠ x.code → bodyRelease x call s = .fail .badValue) ∧
      (trunkPortOf port ≠ none → d.toNat = x.code → s.lockRefuses call.requester = true →
        bodyRelease x call s = .fail .locked) := by
  have a0 : call.arg 0 = port := by rw [Call.arg, h]; rfl
  have a1 : call.arg 1 = d := by rw [Call.arg, h]; rfl
  unfold bodyRelease
  rw [a0, a1]
  cases hp : trunkPortOf port with
  | none => exact ⟨fun _ => rfl, fun hn => absurd rfl hn⟩
  | some p => exact ⟨fun hd => if_pos (hd.resolve_left nofun), fun _ hd hl => (if_neg (not_not.mpr hd)).trans (by rw [hl]; rfl)⟩

/-- A RELEASE_PORT's row is that of its disposition. -/
theorem releaseRow {i : Instr} (hi : i ∈ [Instr.releasePortRetry, .releasePortDrop, .releasePortFlush]) :
    ∃ x : Disposition, RequestRow i (bodyRelease x) ∧ ∀ (c : Cmd) (port d : Byte), c.args = [port, d] → rowTakes i c = true →
      (d = 0 ∨ 3 < d.toNat → d.toNat ≠ x.code) ∧ (d ≠ 0 → d.toNat ≤ 3 → d.toNat = x.code) := by
  have byte1 : ∀ (c : Cmd) (port d : Byte), c.args = [port, d] → byteAt c.args 1 = d := fun c port d h => by rw [h]; rfl
  have row : ∀ (x : Disposition), RequestRow x.row (bodyRelease x) := fun x => by
    cases x
    · refine ⟨unheeding_bodyRelease .retry, honest_bodyRelease _, _, fun c => ?_, fun _ => rfl⟩
      rw [disposition_named .drop c 2 rfl, disposition_named .flush c 3 rfl]
      simp only [Disposition.row, hasCode, rowTakes, requestCode, bne, Bool.and_assoc]
    · refine ⟨unheeding_bodyRelease .drop, honest_bodyRelease _, _, fun c => ?_, fun _ => rfl⟩
      rw [disposition_named .drop c 2 rfl]
      rfl
    · refine ⟨unheeding_bodyRelease .flush, honest_bodyRelease _, _, fun c => ?_, fun _ => rfl⟩
      rw [disposition_named .flush c 3 rfl]
      rfl
  have zero : (0 : Byte).toNat = 0 := rfl
  simp only [List.mem_cons, List.not_mem_nil, or_false] at hi
  rcases hi with rfl | rfl | rfl
  · refine ⟨.retry, row .retry, fun c port d h ht => ⟨fun hd e => ?_, fun h0 h3 => ?_⟩⟩
    · have code : Disposition.retry.code = 1 := rfl
      rcases hd with rfl | hd
      · exact absurd e (by decide)
      · omega
    · have d0 := (Byte.ne_zero_iff d).mp h0
      simp only [rowTakes, requestCode, byte1 c port d h, Bool.and_eq_true, bne_iff_ne] at ht
      have d2 : d.toNat ≠ 2 := fun e => ht.2.1 (BitVec.eq_of_toNat_eq e)
      have d3 : d.toNat ≠ 3 := fun e => ht.2.2 (BitVec.eq_of_toNat_eq e)
      show d.toNat = 1
      omega
  · refine ⟨.drop, row .drop, fun c port d h ht => ?_⟩
    simp only [rowTakes, requestCode, byte1 c port d h, Bool.and_eq_true, beq_iff_eq] at ht
    obtain ⟨-, rfl⟩ := ht
    exact ⟨fun hd => absurd hd (by decide), fun _ _ => rfl⟩
  · refine ⟨.flush, row .flush, fun c port d h ht => ?_⟩
    simp only [rowTakes, requestCode, byte1 c port d h, Bool.and_eq_true, beq_iff_eq] at ht
    obtain ⟨-, rfl⟩ := ht
    exact ⟨fun hd => absurd hd (by decide), fun _ _ => rfl⟩

/-- A WRITE_PARAM's row checks as the others do. -/
theorem writeRow {i : Instr} (hi : i ∈ [Instr.writeParam, .portEnableWrite, .attentionMaskWrite]) :
    ∃ effect, RequestRow i (writeChecked effect) := by
  simp only [List.mem_cons, List.not_mem_nil, or_false] at hi
  rcases hi with rfl | rfl | rfl
  · refine ⟨State.writeParam, unheeding_writeChecked _, honest_writeChecked _, _, fun c => ?_, fun _ => rfl⟩
    simp only [hasCode, namesEnable, namesMask, rowTakes, requestCode, bne, Bool.not_or, Bool.and_assoc]
  · exact ⟨State.writeEnable, unheeding_writeChecked _, honest_writeChecked _, _, fun _ => rfl, fun _ => rfl⟩
  · exact ⟨State.writeMask, unheeding_writeChecked _, honest_writeChecked _, _, fun _ => rfl, fun _ => rfl⟩

/-! ### The session commands (R136) -/

/-- What the session check answers one who is not the owner in OPEN. -/
theorem sessionCheck_refuses {q : Station} (w : Bool) :
    (s.session.state = .closed → s.sessionCheck q w = some .noSession) ∧
      (s.session.state ≠ .closed → s.session.owner ≠ some q → s.sessionCheck q w = some .locked) ∧
      (s.session.state = .syncing → s.session.owner = some q → w = true → s.sessionCheck q w = some .busy) := by
  unfold State.sessionCheck
  refine ⟨fun h => by rw [h], fun h ho => ?_, fun h ho hw => ?_⟩
  · cases hx : s.session.state with
    | closed => exact absurd hx h
    | opened | syncing => exact if_neg ho
  · rw [h, hw]
    exact if_pos ho

/-- The five session commands: each is answered what its session check says, where that refuses. -/
theorem exec_session_refused {e : Execution} {c : Cmd} {rest : List Cmd} {code : Byte} {i : Instr} {r : CmdResult}
    (h : s.standsAt e c rest) (hf : c.formed code)
    (hi : (code, i) ∈ [((0x03 : Byte), Instr.writeSteer), (0x05, .writeChmap), (0x07, .closeEdit), (0x08, .sync),
      (0x09, .commit)])
    (hw : i = .commit → s.session.swapRequested = false)
    (hc : s.sessionCheck e.requester (decide (i ≠ .closeEdit)) = some r) :
    exec i s = .next (s.answerCmd e c rest r [] none) := by
  have code_ := hasCode_of_formed hf
  simp only [List.mem_cons, List.not_mem_nil, or_false, Prod.mk.injEq] at hi
  rcases hi with ⟨rfl, rfl⟩ | ⟨rfl, rfl⟩ | ⟨rfl, rfl⟩ | ⟨rfl, rfl⟩ | ⟨rfl, rfl⟩
  · refine congrArg Host.Outcome.next (runCommand_fail_of_formed h hf code_ ?_)
    unfold bodyWriteSteer
    rw [show s.sessionCheck e.requester true = some r from hc]
  · refine congrArg Host.Outcome.next (runCommand_fail_of_formed h hf code_ ?_)
    unfold bodyWriteChmap
    rw [show s.sessionCheck e.requester true = some r from hc]
  · refine congrArg Host.Outcome.next (runCommand_fail_of_formed h hf code_ ?_)
    unfold bodyCloseEdit
    rw [show s.sessionCheck e.requester false = some r from hc]
  · refine congrArg Host.Outcome.next (runCommand_fail_of_formed h hf code_ ?_)
    unfold bodySync
    rw [show s.sessionCheck e.requester true = some r from hc]
  · refine congrArg Host.Outcome.next ((takeCommit_eq h code_ (hw rfl)).trans ?_)
    obtain ⟨hcode, hlen⟩ := hf
    unfold verdictOf bodyCommit
    rw [hcode, if_neg (not_not.mpr hlen), show s.sessionCheck e.requester true = some r from hc]

/-- Settles O51. -/
theorem lockAndSessionRefuse : Obligations.LockAndSessionRefuse := by
  intro s e c rest h
  have lock : s.session.state ≠ .closed → s.session.owner ≠ some e.requester → s.lockRefuses e.requester = true :=
    State.lockRefuses_of_other
  refine ⟨fun i n hi lo hf hargs hi' ht => ?_, fun index control r1 r0 b1 b0 hf hargs => ?_,
    fun i port d hf hargs hi ht => ?_, fun group start count hf hargs h0 hr hs ho => ?_, fun code i hf hi hw => ?_,
    fun hs ho => ?_⟩
  · obtain ⟨effect, row⟩ := writeRow hi'
    obtain ⟨index, value, locked⟩ := writeChecked_fails (s := s) effect
      (call := { requester := e.requester, args := c.args, isLast := rest.isEmpty }) hargs
    exact ⟨fun hn => row.refused h hf ht (index hn), fun h0 h21 hv => row.refused h hf ht (value h0 h21 hv),
      fun h0 h21 hv hs ho => row.refused h hf ht (locked h0 h21 hv (lock hs ho))⟩
  · obtain ⟨bad, value, locked⟩ := bodyWriteMeter_fails (s := s)
      (call := { requester := e.requester, args := c.args, isLast := rest.isEmpty }) hargs
    have fails : ∀ r, bodyWriteMeter { requester := e.requester, args := c.args, isLast := rest.isEmpty } s = .fail r →
        exec .writeMeter s = .next (s.answerCmd e c rest r [] none) := fun r hr =>
      congrArg Host.Outcome.next (runCommand_fail_of_formed h hf (hasCode_of_formed hf) hr)
    exact ⟨fun hi => fails _ (bad hi), fun hi hc => fails _ (value hi hc),
      fun hi hc hs ho => fails _ (locked hi hc (lock hs ho))⟩
  · obtain ⟨x, row, named⟩ := releaseRow hi
    obtain ⟨wrong, right⟩ := named c port d hargs ht
    obtain ⟨value, locked⟩ := bodyRelease_fails (s := s) x
      (call := { requester := e.requester, args := c.args, isLast := rest.isEmpty }) hargs
    exact ⟨fun hbad => row.refused h hf ht (value (hbad.imp id wrong)),
      fun hp h0 h3 hs ho => row.refused h hf ht (locked hp (right h0 h3) (lock hs ho))⟩
  · have n0 := (Byte.ne_zero_iff count).mp h0
    have flag : byteAt c.args 3 = 1 := by rw [hargs]; rfl
    obtain ⟨takes, ex, htakes⟩ := exec_readCounters_row (clear := 1) (.inl ⟨rfl, rfl⟩) s
    obtain ⟨g, hg, hin⟩ : ∃ g, groupOf group = some g ∧ ¬ g.top < start.toNat + count.toNat - 1 := by
      rcases hr with ⟨rfl, hr⟩ | ⟨h1, h4, hr⟩
      · exact ⟨.entry, rfl, by show ¬ 63 < _; omega⟩
      · obtain ⟨g, hg, hne, -⟩ := groupOf_statistics h1 h4
        rw [State.statistics_eq, hg, Option.map_some, Option.getD_some, Group.length_stats s hne] at hr
        exact ⟨g, hg, by omega⟩
    refine ex.trans (congrArg Host.Outcome.next (runCommand_fail_of_formed h hf (htakes c (hasCode_of_formed hf) flag) ?_))
    rw [bodyReadCounters_eq hargs, hg]
    dsimp only
    rw [if_neg (by decide), if_neg n0, if_neg hin, if_pos ⟨rfl, lock hs ho⟩]
  · obtain ⟨closed, other, busy⟩ := sessionCheck_refuses (s := s) (q := e.requester) (decide (i ≠ .closeEdit))
    exact ⟨fun hs => exec_session_refused h hf hi hw (closed hs), fun hs ho => exec_session_refused h hf hi hw (other hs ho),
      fun hs ho hne => exec_session_refused h hf hi hw (busy hs ho (decide_eq_true hne))⟩
  · refine ⟨fun index bytes hf hargs hd => ?_, fun index b hf hargs hi => ?_⟩
    · refine congrArg Host.Outcome.next (runCommand_fail_of_formed h hf (hasCode_of_formed hf) ?_)
      unfold bodyWriteSteer
      rw [sessionCheck_opened hs ho, hargs, List.drop_one, List.tail_cons, hd]
    · refine congrArg Host.Outcome.next (runCommand_fail_of_formed h hf (hasCode_of_formed hf) ?_)
      have h0 : byteAt [index, b] 0 = index := rfl
      unfold bodyWriteChmap Call.arg
      rw [sessionCheck_opened hs ho, hargs, h0]
      exact if_pos hi

end Sys2Proof.Machine

end

section
/-! REQUEST_START: the request parsed, or its cached response placed again (R148, R149, R159). -/

namespace Sys2Proof.Machine

variable {s t u : State}

/-- A reference dropped in a store with room leaves a record's arrival time. -/
theorem State.arrival_dropRef (h : s.roomy) (r x : Nat) : ((s.dropRef r).record x).arrival = (s.record x).arrival := by
  have set : ∀ n st, ((s.setRecord r { s.record r with refs := n, state := st }).record x).arrival = (s.record x).arrival :=
    fun n st => by
      rw [State.record_setRecord]
      split
      · next e => rw [e]
      · rfl
  unfold State.dropRef
  split
  · rfl
  · dsimp only
    split
    · next n _ _ =>
      obtain ⟨e, -⟩ := (State.release_gaveBack (s := s.setRecord r
        { s.record r with refs := n, state := if s.isQueued r then .queued else .waiting }) h r).1
      rw [e]
      exact set _ _
    · exact set _ _

theorem State.dropRef_engine (h : s.roomy) (r : Nat) :
    (s.dropRef r).mgmt = s.mgmt ∧ (s.dropRef r).events = s.events ∧ (s.dropRef r).session = s.session ∧
      (s.dropRef r).store.mem = s.store.mem ∧ ∀ y, (s.dropRef r).queues y = s.queues y := by
  obtain ⟨st, x, e, hm, -⟩ := s.dropRef_roomy h r
  rw [e]
  exact ⟨rfl, rfl, rfl, hm, fun y => by cases y <;> rfl⟩

/-- What a replay leaves of the node: room, events, session, the pages' bytes, M, the executor and the cache. -/
structure Replayed (s t : State) : Prop where
  roomy : s.roomy → t.roomy
  events : t.events = s.events
  session : t.session = s.session
  mem : t.store.mem = s.store.mem
  queue : t.mgmt.queue = s.mgmt.queue
  executor : t.mgmt.executor = s.mgmt.executor
  cache : t.mgmt.cache = s.mgmt.cache

theorem State.placeReplay_spec (s : State) (y : Port) (r : Nat) :
    Replayed s (s.placeReplay y r) ∧ (s.placeReplay y r).queues y = (s.queues y).push 0 r ∧
      (∀ z, z ≠ y → (s.placeReplay y r).queues z = s.queues z) ∧
      ((s.placeReplay y r).record r).arrival = s.nodeTime ∧
      ((s.placeReplay y r).record r).refs = (s.record r).refs + 1 ∧
      (s.placeReplay y r).mgmt.stats = { s.mgmt.stats with replays := satInc s.mgmt.stats.replays } := by
  have frame := s.enqueue_frame y 0 r
  have queues := fun z => s.queues_enqueue y z 0 r
  have refs := congrArg FrameRecord.refs (s.record_enqueue_same y 0 r)
  unfold State.placeReplay
  dsimp only
  generalize s.enqueue y 0 r = v at *
  have qs : ∀ z, ((v.setRecord r { v.record r with arrival := s.nodeTime }).raiseMgmt .replays).queues z = v.queues z :=
    fun z => by cases z <;> rfl
  have own : ((v.setRecord r { v.record r with arrival := s.nodeTime }).raiseMgmt .replays).record r =
      { v.record r with arrival := s.nodeTime } := State.record_setRecord_same v r _
  refine ⟨⟨fun h => ?_, ?_, ?_, ?_, ?_, ?_, ?_⟩, ?_, fun z hz => ?_, ?_, ?_, ?_⟩
  · rw [frame]; exact h
  · rw [frame]; rfl
  · rw [frame]; rfl
  · rw [frame]; rfl
  · rw [frame]; rfl
  · rw [frame]; rfl
  · rw [frame]; rfl
  · rw [qs, queues, if_pos rfl]
  · rw [qs, queues, if_neg hz]
  · rw [own]
  · rw [own]; exact refs
  · rw [frame]; rfl

theorem State.raiseSkip_replayed (s : State) (y : Port) :
    Replayed s (s.raiseSkip y) ∧ (∀ z, (s.raiseSkip y).queues z = s.queues z) ∧ (s.raiseSkip y).mgmt = s.mgmt := by
  cases y <;> exact ⟨⟨id, rfl, rfl, rfl, rfl, rfl, rfl⟩, fun z => by cases z <;> rfl, rfl⟩

/-- What a replay does, by where its port stands (R159). -/
theorem State.replay_spec {c : CacheEntry} {y : Port} (hy : s.routeByDest (s.header c.frame).dest = some y) :
    Replayed s (s.replay c) ∧ (∀ z, z ≠ y → (s.replay c).queues z = s.queues z) ∧
      ((s.queues y).holds c.frame = true →
        (s.replay c).queues y = s.queues y ∧ ((s.replay c).record c.frame).arrival = (s.record c.frame).arrival ∧
        (s.replay c).mgmt.stats = { s.mgmt.stats with replaysSuppressed := satInc s.mgmt.stats.replaysSuppressed }) ∧
      ((s.queues y).holds c.frame = false → s.canPlace y 0 = true →
        (s.replay c).queues y = (s.queues y).push 0 c.frame ∧ ((s.replay c).record c.frame).arrival = s.nodeTime ∧
        ((s.replay c).record c.frame).refs = (s.record c.frame).refs + 1 ∧
        (s.replay c).mgmt.stats = { s.mgmt.stats with replays := satInc s.mgmt.stats.replays }) ∧
      ((s.queues y).holds c.frame = false → s.canPlace y 0 = false →
        (s.replay c).queues y = s.queues y ∧ (s.replay c).mgmt.stats = s.mgmt.stats) := by
  have eq : s.replay c = if (s.queues y).holds c.frame then s.raiseMgmt .replaysSuppressed
      else if s.canPlace y 0 then s.placeReplay y c.frame else s.raiseSkip y := by
    unfold State.replay
    rw [hy]
  rw [eq]
  cases (s.queues y).holds c.frame with
  | true =>
    exact ⟨⟨id, rfl, rfl, rfl, rfl, rfl, rfl⟩, fun z _ => by cases z <;> rfl, fun _ => ⟨by cases y <;> rfl, rfl, rfl⟩, nofun,
      nofun⟩
  | false =>
    cases s.canPlace y 0 with
    | true =>
      obtain ⟨kept, own, others, arrival, refs, stats⟩ := s.placeReplay_spec y c.frame
      exact ⟨kept, others, nofun, fun _ _ => ⟨own, arrival, refs, stats⟩, nofun⟩
    | false =>
      obtain ⟨kept, queues, mgmt⟩ := s.raiseSkip_replayed y
      exact ⟨kept, fun z _ => queues z, nofun, nofun, fun _ _ => ⟨queues y, congrArg Mgmt.stats mgmt⟩⟩

/-- Settles O42. -/
theorem requestStartParsesOrReplays : Obligations.RequestStartParsesOrReplays := by
  intro s q more hx hq
  have start : exec .requestStart s = .next (s.startRequest q) := by
    show execRequestStart s = _
    unfold execRequestStart
    rw [hx, hq]
  refine ⟨fun hm => ⟨fun cmds hp => ?_, fun hp => ?_⟩, fun c y hc hy hr => ⟨_, start, ?_⟩⟩
  · rw [start]
    unfold State.startRequest
    dsimp only
    rw [hm, hp]
    rfl
  · rw [start]
    unfold State.startRequest
    dsimp only
    rw [hm, hp]
    rfl
  · have hit : s.startRequest q = ((s.setCache (s.mgmt.cache.erase c ++ [c])).replay c).endRequest := by
      unfold State.startRequest
      dsimp only
      rw [show s.cached q.requester (requestId (s.payload q.frame)) = some c from hc]
    obtain ⟨kept, others, held, placed, skipped⟩ :=
      State.replay_spec (s := s.setCache (s.mgmt.cache.erase c ++ [c])) (c := c) hy
    have can : (s.setCache (s.mgmt.cache.erase c ++ [c])).canPlace y 0 = s.canPlace y 0 := by cases y <;> rfl
    have queues : ∀ z, (s.setCache (s.mgmt.cache.erase c ++ [c])).queues z = s.queues z := fun z => by cases z <;> rfl
    rw [can, queues] at *
    rw [hit]
    generalize (s.setCache (s.mgmt.cache.erase c ++ [c])).replay c = v at *
    have ended : v.endRequest = State.dropRef { v with mgmt := { v.mgmt with queue := more } } q.frame := by
      unfold State.endRequest
      rw [kept.queue, show (s.setCache (s.mgmt.cache.erase c ++ [c])).mgmt.queue = q :: more from hq]
    have room : State.roomy { v with mgmt := { v.mgmt with queue := more } } := kept.roomy hr
    obtain ⟨dm, de, ds, dmem, dq⟩ := State.dropRef_engine room q.frame
    have arrival := State.arrival_dropRef room q.frame c.frame
    have refs := fun hne => congrArg FrameRecord.refs (State.record_dropRef (x := c.frame) (r := q.frame) hne room)
    have vq : ∀ z, State.queues { v with mgmt := { v.mgmt with queue := more } } z = v.queues z := fun z => by cases z <;> rfl
    rw [ended]
    refine ⟨?_, ?_, ?_, de.trans kept.events, ds.trans kept.session, dmem.trans kept.mem, fun z hz => ?_, fun hh => ?_,
      fun hh hc => ?_, fun hh hc => ?_⟩
    · rw [dm]; exact kept.executor.trans hx
    · rw [dm]
    · rw [dm]; exact kept.cache
    · rw [dq, vq, others z hz, queues]
    · obtain ⟨h1, h2, h3⟩ := held hh
      exact ⟨(dq y).trans ((vq y).trans h1), arrival.trans h2, by rw [dm]; exact h3⟩
    · obtain ⟨h1, h2, h3, h4⟩ := placed hh hc
      exact ⟨(dq y).trans ((vq y).trans h1), arrival.trans h2, fun hne => (refs hne).trans h3, by rw [dm]; exact h4⟩
    · obtain ⟨h1, h2⟩ := skipped hh hc
      exact ⟨(dq y).trans ((vq y).trans h1), by rw [dm]; exact h2⟩

end Sys2Proof.Machine

end

section
/-! An event stored, lost, or stored with a NOTICE (R168 to R174). -/

namespace Sys2Proof.Machine

variable {s t u : State}

/-! ### The watermark of a notice's admission -/

theorem State.examineQuietly_eq (s : State) : s.examineQuietly =
    { s with
      store := { s.store with watermark := s.examineQuietly.store.watermark }, events := s.examineQuietly.events } := by
  unfold State.examineQuietly
  split
  · split
    · unfold State.append
      split <;> rfl
    · rfl
  · split <;> rfl

theorem State.examineQuietly_events (s : State) : s.examineQuietly.events =
    if s.store.watermark = .armed ∧ s.store.freePages.length < 34 then (s.append .storeLow none none).events
    else s.events := by
  unfold State.examineQuietly
  cases hw : s.store.watermark with
  | armed =>
    dsimp only
    by_cases hp : s.store.freePages.length < 34
    · rw [if_pos (show s.store.freePages.length < Config.reserve from hp), if_pos ⟨rfl, hp⟩]
      exact State.append_events_congr (s := s) (t := s.setWatermark .low) rfl rfl rfl _ _ _
    · rw [if_neg (show ¬ s.store.freePages.length < Config.reserve from hp), if_neg (fun h => hp h.2)]
  | low =>
    dsimp only
    rw [if_neg (show ¬ (Watermark.low = .armed ∧ s.store.freePages.length < 34) from fun h => nomatch h.1)]
    split <;> rfl

/-- After its examination the watermark is LOW or 34 pages are free. -/
theorem State.roomy_examineQuietly (s : State) : s.examineQuietly.roomy := by
  unfold State.examineQuietly State.roomy
  cases hw : s.store.watermark with
  | armed =>
    dsimp only
    split
    · left
      unfold State.append
      split <;> rfl
    · next hp => exact .inr (Nat.not_lt.mp hp)
  | low =>
    dsimp only
    split
    · next hp => exact .inr (Nat.le_trans (by decide) hp)
    · exact .inl hw

/-! ### The append (R170) -/

theorem State.append_stored (h : s.events.records.length < 32) (k : EventKind) (p : Option Port) (d : Option Half) :
    s.append k p d = { s with
      events :=
        { s.events with
          records := s.events.records ++ [s.newRecord k p d]
          nextSeq := s.events.nextSeq + 1
          attention := attentionOf s.params.attentionMask (s.events.records ++ [s.newRecord k p d]) } } := if_pos h

theorem State.append_lost (h : 32 ≤ s.events.records.length) (k : EventKind) (p : Option Port) (d : Option Half) :
    s.append k p d = { s with events := { s.events with lost := satInc s.events.lost } } := if_neg (Nat.not_lt.mpr h)

theorem satInc_eq (x : Half) : satInc x = if x = 0xFFFF then 0xFFFF else x + 1 := by
  unfold satInc
  have lt := x.isLt
  by_cases h : x = 0xFFFF
  · rw [h]
    rfl
  · have ne : x.toNat ≠ 65535 := fun e => h (BitVec.eq_of_toNat_eq e)
    rw [if_pos (by omega), if_neg h]

/-- The byte of an event record with the detail mark and the port's code (R101). -/
theorem eventFlags_eq (detail : Bool) (code : BitVec 2) :
    bit detail ++ (0 : BitVec 5) ++ code = (if detail then 0x80 else 0) ||| code.setWidth 8 := by
  revert detail code
  decide

/-! ### A notice admitted (R172) -/

/-- The node with a notice admitted, the watermark examined and the notice built in its record. -/
def State.noticed (s : State) (r : Nat) (free : List Nat) (bytes : List Byte) : State :=
  (s.taken .i 10 r free).examineQuietly.fill r 0 bytes

section noticed

variable {r pg : Nat} {free pages : List Nat} {bytes : List Byte}

theorem State.sendNotice_taken (hf : s.store.freeRecs = r :: free) (hp : s.store.freePages = pg :: pages)
    (hh : s.store.held.get .i + 1 ≤ s.quota .i) (e : EventRecord) :
    s.sendNotice e = (((s.noticed r free (s.noticeBytes e)).placeByDest (s.params.monitorStation.getD 255)
      r).releaseSkippedNotice r).setNotice := by
  have take : s.takeRoom .i 10 = some (r, s.taken .i 10 r free) :=
    s.takeRoom_granted hf (by rw [hp]; exact Nat.succ_le_succ (Nat.zero_le _)) hh
  unfold State.sendNotice
  rw [take]
  rfl

theorem State.sendNotice_refused (h : s.lacksRoom 1) (e : EventRecord) : s.sendNotice e = s := by
  have none : s.takeRoom .i 10 = none := by
    unfold State.takeRoom
    rcases h with h | h | h
    · rw [h]
    · split
      · rfl
      · rw [if_neg (fun hr => by
          have := (Bool.and_eq_true _ _ ▸ hr : _ ∧ _).1
          have room := of_decide_eq_true this
          have one : pagesNeeded 10 = 1 := rfl
          have zero : reserveOf .i = 0 := rfl
          omega)]
    · split
      · rfl
      · rw [if_neg (fun hr => by
          have := (Bool.and_eq_true _ _ ▸ hr : _ ∧ _).2
          have quota := of_decide_eq_true this
          have one : pagesNeeded 10 = 1 := rfl
          omega)]
  unfold State.sendNotice
  rw [none]

theorem State.noticed_eq (s : State) (r : Nat) (free : List Nat) (bytes : List Byte) :
    s.noticed r free bytes = { s with
      store := (s.noticed r free bytes).store, events := (s.noticed r free bytes).events } := by
  unfold State.noticed
  rw [State.fill_eq, State.examineQuietly_eq]
  rfl

theorem State.noticed_store (s : State) (r : Nat) (free : List Nat) (bytes : List Byte) :
    (s.noticed r free bytes).store.freeRecs = free ∧ (s.noticed r free bytes).store.freePages = s.store.freePages.drop 1 ∧
      (s.noticed r free bytes).store.held = s.store.held.on (· + 1) .i := by
  unfold State.noticed
  rw [State.fill_eq, State.examineQuietly_eq]
  exact ⟨rfl, rfl, rfl⟩

theorem State.noticed_record (s : State) (r : Nat) (free : List Nat) (bytes : List Byte) :
    (s.noticed r free bytes).record r =
      { state := .filling, source := .i, size := 20, pages := s.store.freePages.take 1, arrival := s.nodeTime, refs := 0 } := by
  unfold State.noticed
  rw [State.fill_record, State.record_examineQuietly, s.taken_record .i 10 r free]
  rfl

theorem State.noticed_events (s : State) (r : Nat) (free : List Nat) (bytes : List Byte) :
    (s.noticed r free bytes).events =
      if s.store.watermark = .armed ∧ (s.store.freePages.drop 1).length < 34 then (s.append .storeLow none none).events
      else s.events := by
  have same := State.append_events_congr (s := s) (t := s.taken .i 10 r free) rfl rfl rfl .storeLow none none
  unfold State.noticed
  rw [State.fill_eq]
  refine (State.examineQuietly_events _).trans ?_
  rw [same]
  rfl

theorem State.roomy_noticed (s : State) (r : Nat) (free : List Nat) (bytes : List Byte) : (s.noticed r free bytes).roomy := by
  unfold State.noticed
  rw [State.fill_eq]
  exact (s.taken .i 10 r free).roomy_examineQuietly

theorem State.frameBytes_noticed (hp : s.store.freePages = pg :: pages) (hl : bytes.length = 20) :
    (s.noticed r free bytes).frameBytes r = bytes := by
  have record : (s.taken .i 10 r free).examineQuietly.record r = _ :=
    (State.record_examineQuietly _ r).trans (s.taken_record .i 10 r free)
  have one : pagesNeeded 10 = 1 := rfl
  refine State.frameBytes_fill r ?_ ?_ bytes ?_ <;> rw [record]
  · rw [hp, one]
    simp
  · rw [hp, one]
    show 20 ≤ 1 * 64
    decide
  · exact hl

end noticed

/-! ### A notice sent -/

/-- What a notice placed leaves and makes: the entry, the record and its bytes (R172). -/
theorem State.notice_placed {z : State} {q : Port} {m : Station} {r : Nat} (hq : z.routeByDest m = some q)
    (hc : z.canPlace q 0 = true) :
    ((z.placeByDest m r).releaseSkippedNotice r).setNotice = (z.enqueue q 0 r).setNotice := by
  have placed : z.placeByDest m r = z.enqueue q 0 r := by
    unfold State.placeByDest
    rw [hq]
    exact State.place_taken hc r
  have kept : (z.enqueue q 0 r).releaseSkippedNotice r = z.enqueue q 0 r :=
    if_neg (by rw [State.record_enqueue_same]; exact Nat.succ_ne_zero _)
  rw [placed, kept]

/-- What a notice skipped leaves: its room given back, the skip counted. -/
theorem State.notice_skipped {z : State} {q : Port} {m : Station} {r : Nat} (hq : z.routeByDest m = some q)
    (hc : z.canPlace q 0 = false) (h0 : (z.record r).refs = 0) (hr : z.roomy) :
    ∃ w i, ((z.placeByDest m r).releaseSkippedNotice r).setNotice =
      ((((z.raiseSkip q).returnRoom r).setWatermark w).setIngress i).setNotice := by
  have placed : z.placeByDest m r = z.raiseSkip q := by
    unfold State.placeByDest
    rw [hq]
    exact State.place_skipped hc r
  have refs : ((z.raiseSkip q).record r).refs = 0 := by cases q <;> exact h0
  have back : (z.raiseSkip q).releaseSkippedNotice r = ((z.raiseSkip q).returnRoom r).examineQuietly.announce := if_pos refs
  have room : ((z.raiseSkip q).returnRoom r).store.watermark = .low ∨
      34 ≤ ((z.raiseSkip q).returnRoom r).store.freePages.length := by
    have more : (z.raiseSkip q).store = z.store := by cases q <;> rfl
    show (z.raiseSkip q).store.watermark = .low ∨ 34 ≤ ((z.raiseSkip q).store.freePages ++ _).length
    rw [more, List.length_append]
    exact hr.imp id (fun h => Nat.le_trans h (Nat.le_add_right _ _))
  rw [placed, back]
  generalize (z.raiseSkip q).returnRoom r = v at room
  have quiet : v.examineQuietly = v.setWatermark v.examineQuietly.store.watermark := by
    have events : v.examineQuietly.events = v.events := by
      rw [State.examineQuietly_events, if_neg]
      rintro ⟨ha, hl⟩
      rcases room with h | h
      · rw [h] at ha; exact absurd ha (by decide)
      · omega
    have eq := v.examineQuietly_eq
    rw [events] at eq
    exact eq
  rw [quiet]
  generalize v.examineQuietly.store.watermark = w
  refine ⟨w, (v.setWatermark w).announce.loc.ingress, ?_⟩
  unfold State.announce
  split
  · split <;> rfl
  · rfl

/-- The notice's bytes (R101, R172). -/
theorem State.noticeBytes_eq {m own : Station} {up : TrunkPort} (hm : s.params.monitorStation = some m)
    (hn : s.numbering = .numbered own up) (e : EventRecord) : s.noticeBytes e =
      encodeHeader
        { kind := 6, mark := false, seq := 0, cls := 0, channel := 0, dest := m, source := own, tag := 0, length := 10
          zeros := 0 } ++
        beBytes 2 e.seq.toNat ++ [BitVec.ofNat 8 (eventCode e.kind)] ++
        [(if e.detail.isSome then 0x80 else 0) ||| (portCode e.port).setWidth 8] ++
        beBytes 4 e.time.toNat ++ beBytes 2 (e.detail.getD 0).toNat := by
  unfold State.noticeBytes eventBytes
  rw [hm, hn, eventFlags_eq, beBytes_two, beBytes_two]
  simp only [List.append_assoc, List.cons_append, List.nil_append]
  rfl

end Sys2Proof.Machine

end

section
/-! An event handed to the event queue, in each of its outcomes (R170, R172). -/

namespace Sys2Proof.Machine

variable {s t u : State}

/-- What a notice sent leaves of a node whose event queue held nothing: one record, or two with the STORE_LOW of the notice's own
admission behind it, the flag set, ATTENTION recomputed. -/
structure Noticed (s t : State) (x low : EventRecord) (short : Prop) [Decidable short] : Prop where
  outstanding : t.events.noticeOutstanding = true
  lost : t.events.lost = s.events.lost
  records : t.events.records = if short then [x, low] else [x]
  nextSeq : t.events.nextSeq = if short then s.events.nextSeq + 2 else s.events.nextSeq + 1
  attention : t.events.attention = t.events.records.any (fun y => s.params.attentionMask.getLsbD (eventCode y.kind))
  numbering : t.numbering = s.numbering
  params : t.params = s.params
  mgmt : t.mgmt = s.mgmt
  steer : t.steer = s.steer

/-- The event queue of a node with a notice admitted: the record it carries, and a STORE_LOW behind it where pages are short. -/
theorem State.noticed_queue {x low : EventRecord} {k : EventKind} {port : Option Port} {d : Option Half} {r : Nat}
    {free : List Nat} {bytes : List Byte} (he : s.events.records = []) (hx : s.newRecord k port d = x)
    (hlow : low = { seq := s.events.nextSeq + 1, kind := .storeLow, port := none, time := s.nodeTime, detail := none })
    (ht : t.events = { ((s.append k port d).noticed r free bytes).events with noticeOutstanding := true })
    (hn : t.numbering = s.numbering) (hp : t.params = s.params) (hm : t.mgmt = s.mgmt) (hs : t.steer = s.steer) :
    Noticed s t x low (s.store.watermark = .armed ∧ (s.store.freePages.drop 1).length < 34) := by
  have stored := State.append_stored (s := s) (by rw [he]; exact Nat.zero_lt_succ 31) k port d
  have events := (s.append k port d).noticed_events r free bytes
  have one : (s.append k port d).events.records = [x] := by rw [stored, he, hx]; rfl
  have store : (s.append k port d).store = s.store := by rw [stored]
  have behind := State.append_stored (s := s.append k port d) (by rw [one]; exact Nat.lt_of_sub_eq_succ rfl) .storeLow none none
  have next : (s.append k port d).newRecord .storeLow none none = low := by rw [hlow, stored]; rfl
  rw [next, one] at behind
  rw [store, behind] at events
  by_cases hshort : s.store.watermark = .armed ∧ (s.store.freePages.drop 1).length < 34
  · rw [if_pos hshort] at events
    rw [events] at ht
    refine ⟨by rw [ht], by rw [ht, stored], by rw [ht, if_pos hshort]; rfl, ?_, ?_, hn, hp, hm, hs⟩
    · rw [ht, if_pos hshort, stored]
      exact BitVec.add_assoc _ 1 1
    · rw [ht, stored]
      rfl
  · rw [if_neg hshort] at events
    rw [events] at ht
    refine ⟨by rw [ht], by rw [ht, stored], by rw [ht, one, if_neg hshort], ?_, ?_, hn, hp, hm, hs⟩
    · rw [ht, if_neg hshort, stored]
    · rw [ht, stored]
      rfl

theorem held_on_on (h : Held) (x : Source) : (h.on (· + 1) x).on (· - 1) x = h := by
  cases x <;> rfl

/-- Settles O49. -/
theorem appendStoresLosesAndNotifies : Obligations.AppendStoresLosesAndNotifies := by
  intro s k port d x low stored hx hlow hstored
  have new : s.newRecord k port d = x := hx.symm
  have append : s.events.records.length < 32 → s.append k port d = stored := fun h => by
    rw [State.append_stored h, new, hstored]
    rfl
  have unannounced : (s.append k port d).noticeDue = false → s.raiseEvent k port d = s.append k port d :=
    State.raiseEvent_unannounced k port d
  refine ⟨fun h => ?_, fun h hd => ?_, fun monitor own up he hm hn ho => ?_⟩
  · have ne : s.events.records ≠ [] := fun e => by rw [e] at h; exact absurd h (by decide)
    rw [State.raiseEvent_behind k port d ne, State.append_lost h, satInc_eq]
  · rw [← append h]
    by_cases ne : s.events.records = []
    · refine unannounced ?_
      have rest := s.append_rest k port d
      have flag : (s.append k port d).events.noticeOutstanding = s.events.noticeOutstanding := by rw [State.append_stored h]
      unfold State.noticeDue
      rw [flag]
      rw [rest]
      rcases hd with hd | hd | hd | hd
      · exact absurd ne hd
      · simp [hd]
      · simp [hd, Numbering.isNumbered]
      · simp [hd]
    · exact State.raiseEvent_behind k port d ne
  · have short : s.events.records.length < 32 := by rw [he]; exact Nat.zero_lt_succ 31
    have whole := State.append_stored (s := s) short k port d
    have sent : s.raiseEvent k port d = (s.append k port d).sendNotice x := by
      have due : (s.append k port d).noticeDue = true := by
        unfold State.noticeDue
        rw [whole]
        simp [hm, hn, ho, Numbering.isNumbered]
      unfold State.raiseEvent
      dsimp only
      rw [due, he, new]
      rfl
    refine ⟨fun hl => ?_, fun r free pg pages q hf hp hh hq => ⟨_, rfl, ?_⟩⟩
    · rw [sent, State.sendNotice_refused (s := s.append k port d) (by rw [whole]; exact hl), append short]
    · have taken := State.sendNotice_taken (s := s.append k port d) (r := r) (free := free) (pg := pg) (pages := pages)
        (by rw [whole]; exact hf) (by rw [whole]; exact hp) (by rw [whole]; exact hh) x
      have station : (s.append k port d).params.monitorStation.getD 255 = monitor := by rw [whole, hm]; rfl
      rw [station] at taken
      rw [sent, taken]
      have bytes : (s.append k port d).noticeBytes x = _ :=
        State.noticeBytes_eq (m := monitor) (own := own) (up := up) (by rw [whole]; exact hm) (by rw [whole]; exact hn) x
      have eq := (s.append k port d).noticed_eq r free ((s.append k port d).noticeBytes x)
      have image := State.frameBytes_noticed (s := s.append k port d) (r := r) (pg := pg) (free := free) (pages := pages)
        (bytes := (s.append k port d).noticeBytes x) (by rw [whole]; exact hp) rfl
      have record := (s.append k port d).noticed_record r free ((s.append k port d).noticeBytes x)
      obtain ⟨fr, fp, fh⟩ := (s.append k port d).noticed_store r free ((s.append k port d).noticeBytes x)
      have room := (s.append k port d).roomy_noticed r free ((s.append k port d).noticeBytes x)
      have queue := fun t ht => State.noticed_queue (s := s) (t := t) (r := r) (free := free)
        (bytes := (s.append k port d).noticeBytes x) he new hlow ht
      rw [hp, List.drop_one, List.tail_cons] at queue
      have image := image.trans bytes
      generalize (s.append k port d).noticed r free ((s.append k port d).noticeBytes x) = z at *
      rw [whole] at eq record fp fh
      rw [hp] at record fp
      have zq : ∀ y, z.queues y = s.queues y := fun y => by rw [eq]; cases y <;> rfl
      have can : z.canPlace q 0 = s.canPlace q 0 :=
        State.canPlace_congr zq (by rw [eq]) (fun p => by rw [eq]; cases p <;> rfl) q 0
      have route : z.routeByDest monitor = some q := by
        have znum : z.numbering = .numbered own up := by rw [eq]; exact hn
        unfold State.routeByDest
        rw [znum, hq]
        dsimp only
        by_cases h1 : monitor = own ∨ monitor = 255
        · rw [if_pos (by simpa using h1), if_pos h1]
        · rw [if_neg (by simpa using h1), if_neg h1]
          split <;> rfl
      cases hc : s.canPlace q 0 with
      | true =>
        rw [State.notice_placed route (can.trans hc)]
        have frame := z.enqueue_frame q 0 r
        have noticed := queue (z.enqueue q 0 r).setNotice (by rw [frame]; rfl) (by rw [frame, eq]; rfl) (by rw [frame, eq]; rfl)
          (by rw [frame, eq]; rfl) (by rw [frame, eq]; rfl)
        have queues : ∀ y, (z.enqueue q 0 r).setNotice.queues y = (z.enqueue q 0 r).queues y := fun y => by cases y <;> rfl
        have held : (z.enqueue q 0 r).setNotice.record r = { z.record r with state := .queued, refs := (z.record r).refs + 1 } :=
          z.record_enqueue_same q 0 r
        refine ⟨noticed.outstanding, noticed.lost, noticed.records, noticed.nextSeq, noticed.attention, noticed.numbering,
          noticed.params, noticed.mgmt, noticed.steer, fun y hy => ?_, fun _ => ⟨?_, ?_, ?_, ?_, ?_, ?_⟩, nofun⟩
        · rw [queues, State.queues_enqueue, if_neg hy, zq]
        · rw [queues, State.queues_enqueue, if_pos rfl, zq]
        · rw [frame]; exact fr
        · rw [frame]; exact fp
        · rw [frame]; exact fh
        · rw [held, record]
          rfl
        · refine Eq.trans (State.frameBytes_congr (s := z) ?_ ?_ ?_) ?_
          · rw [frame]; rfl
          · rw [held]
          · rw [held]
          · rw [image, hx]
            cases port with
            | none => rfl
            | some y => cases y <;> rfl
      | false =>
        obtain ⟨w, i, e⟩ := State.notice_skipped (z := z) (r := r) route (can.trans hc) (by rw [record]) room
        rw [e]
        have noticed := queue ((((z.raiseSkip q).returnRoom r).setWatermark w).setIngress i).setNotice
          (by cases q <;> rfl) (by rw [eq]; cases q <;> rfl) (by rw [eq]; cases q <;> rfl) (by rw [eq]; cases q <;> rfl)
          (by rw [eq]; cases q <;> rfl)
        have store : (z.raiseSkip q).store = z.store := by cases q <;> rfl
        have same : (z.raiseSkip q).record r = z.record r := by cases q <;> rfl
        refine ⟨noticed.outstanding, noticed.lost, noticed.records, noticed.nextSeq, noticed.attention, noticed.numbering,
          noticed.params, noticed.mgmt, noticed.steer, fun y _ => ?_, nofun, fun _ =>
              ⟨?_, ?_, ?_, ?_, fun p hpq => ?_, fun hl => ?_⟩⟩
        · rw [← zq]; cases q <;> cases y <;> rfl
        · rw [← zq]; cases q <;> rfl
        · show (z.raiseSkip q).store.freeRecs ++ [r] = _
          rw [store, fr]
        · show (z.raiseSkip q).store.freePages ++ ((z.raiseSkip q).record r).pages = _
          rw [store, same, record, fp]
          rfl
        · show (z.raiseSkip q).store.held.on (· - ((z.raiseSkip q).record r).pages.length) ((z.raiseSkip q).record r).source = _
          rw [store, same, record, fh]
          exact held_on_on _ _
        · have trunk : z.trunk p = s.trunk p := by rw [eq]; cases p <;> rfl
          rw [← trunk, hpq]
          cases p <;> rfl
        · have loc : z.loc = s.loc := by rw [eq]
          rw [← loc, hl]
          rfl

end Sys2Proof.Machine

end

section
/-! Table entries and headers read back as they were written (R70, R99, R100, R104). -/

namespace Sys2Proof.Machine

/-! ### Fields in their bytes -/

theorem extract_append_mid {a b c : Nat} (x : BitVec a) (y : BitVec b) (z : BitVec c) :
    (x ++ y ++ z).extractLsb' c b = y := by
  refine BitVec.eq_of_getLsbD_eq fun i hi => ?_
  rw [BitVec.getLsbD_extractLsb', BitVec.getLsbD_append, if_neg (by omega), Nat.add_sub_cancel_left, BitVec.getLsbD_append,
    if_pos hi]
  simp [hi]

/-- The high and the low bits of a vector, joined again. -/
theorem extract_join {a b : Nat} (x : BitVec (a + b)) : x.extractLsb' b a ++ x.extractLsb' 0 b = x := by
  refine BitVec.eq_of_getLsbD_eq fun i hi => ?_
  rw [BitVec.getLsbD_append]
  split
  · next h => simp [h]
  · next h => simp [show i - b < a by omega, show b + (i - b) = i by omega]

section field

variable {a b : Nat} (x : BitVec b)

theorem setWidth_zero_append : ((0 : BitVec a) ++ x).setWidth b = x := by
  refine BitVec.eq_of_getLsbD_eq fun i hi => ?_
  rw [BitVec.getLsbD_setWidth, BitVec.getLsbD_append, if_pos hi]
  simp [hi]

end field

theorem above_zero_append {w : Nat} {b : Byte} (h : b.toNat < 2 ^ w) : above w b = false :=
  decide_eq_false (Nat.not_le.mpr h)

theorem toNat_zero_append {a b : Nat} (x : BitVec b) : ((0 : BitVec a) ++ x).toNat < 2 ^ b := by
  rw [BitVec.toNat_append]
  simp only [BitVec.ofNat_eq_ofNat, BitVec.toNat_ofNat, Nat.zero_mod, Nat.zero_shiftLeft, Nat.zero_or]
  exact x.isLt

/-! ### Headers -/

theorem parseHeader_encodeHeader (h : Header) : parseHeader (encodeHeader h) = h := by
  have parsed : parseHeader (encodeHeader h) =
      { kind := (headerByte0 h).extractLsb' 4 4, mark := (headerByte0 h).getLsbD 3, seq := (headerByte0 h).extractLsb' 0 3
        cls := (headerByte1 h).extractLsb' 6 2, channel := (headerByte1 h).extractLsb' 0 6, dest := h.dest, source := h.source
        tag := half (h.tag.extractLsb' 8 8) (h.tag.extractLsb' 0 8)
        length := (h.zeros.extractLsb' 8 5 ++ h.length.extractLsb' 8 3).extractLsb' 0 3 ++ h.length.extractLsb' 0 8
        zeros := (h.zeros.extractLsb' 8 5 ++ h.length.extractLsb' 8 3).extractLsb' 3 5 ++ h.zeros.extractLsb' 0 8 } := rfl
  have length : h.length.extractLsb' 8 3 ++ h.length.extractLsb' 0 8 = h.length := extract_join (a := 3) (b := 8) h.length
  have zeros : h.zeros.extractLsb' 8 5 ++ h.zeros.extractLsb' 0 8 = h.zeros := extract_join (a := 5) (b := 8) h.zeros
  rw [parsed, headerByte0_kind, headerByte0_mark, headerByte0_seq, headerByte1_cls, headerByte1_channel, half_halves,
    extract_append_low, extract_append_high, length, zeros]

/-- A header the node builds is one its own receiver accepts. -/
theorem headerBad_encodeHeader {h : Header} (hf : fieldsBad h = false) : Machine.headerBad (encodeHeader h) = false := by
  have check : headerCheck ((encodeHeader h).take 9) = byteAt (encodeHeader h) 9 := rfl
  unfold Machine.headerBad
  rw [check, parseHeader_encodeHeader, hf, Bool.or_false]
  exact bne_self_eq_false _

/-- A frame as sent is the frame with its Seq set and its header check computed anew (R70). -/
theorem sentImage_encodeHeader (h : Header) (q : LinkSeq) (payload : List Byte) :
    sentImage (encodeHeader h ++ payload) q = encodeHeader { h with seq := q } ++ payload := by
  have byte0 : (headerByte0 h).extractLsb' 3 5 ++ q = headerByte0 { h with seq := q } :=
    congrArg (· ++ q) (extract_append_high (h.kind ++ bit h.mark) h.seq)
  have image : sentImage (encodeHeader h ++ payload) q =
      sealHeader (((headerByte0 h).extractLsb' 3 5 ++ q) :: (headerFields h).drop 1) ++ payload := rfl
  rw [image, byte0]
  rfl

theorem parseHeader_append (h : Header) (payload : List Byte) :
    parseHeader (encodeHeader h ++ payload) = parseHeader (encodeHeader h) := rfl

/-! ### Table entries -/

theorem deliveryOf_bits (d : Delivery) : deliveryOf (deliveryBits d) = d := by
  obtain ⟨a, b, c, e⟩ := d
  revert a b c e
  decide

theorem kindsOf_bits (k : Kinds) : kindsOf (kindsBits k) = k := by
  obtain ⟨a, b, c, e⟩ := k
  revert a b c e
  decide

theorem markOf_code (m : MarkCond) : markOf (markCode m) = some m := by cases m <;> rfl

theorem arrivalOf_code (x : Arrival) : arrivalOf (arrivalCode x) = some x := by cases x <;> rfl

/-- Byte 0 of an entry: Valid, Mark, Mode and Priority (R104). -/
theorem entryByte0 (v y : Bool) (m : BitVec 2) (p : BitVec 4) :
    (bit v ++ m ++ bit y ++ p).extractLsb' 5 2 = m ∧ (bit v ++ m ++ bit y ++ p).getLsbD 7 = v ∧
      (bit v ++ m ++ bit y ++ p).extractLsb' 0 4 = p ∧ (bit v ++ m ++ bit y ++ p).getLsbD 4 = y := by
  revert v y m p
  decide

/-- Byte 1 of an entry: Arrival and Kinds (R104). -/
theorem entryByte1 (x : BitVec 3) (k : BitVec 4) :
    ((0 : BitVec 1) ++ x ++ k).extractLsb' 4 3 = x ∧ ((0 : BitVec 1) ++ x ++ k).extractLsb' 0 4 = k ∧
      ((0 : BitVec 1) ++ x ++ k).getLsbD 7 = false := by
  revert x k
  decide

/-- Byte 13 of an entry: the five presence bits (R104). -/
theorem entryByte13 (a b c d e : Bool) :
    ((0 : BitVec 3) ++ bit a ++ bit b ++ bit c ++ bit d ++ bit e).getLsbD 0 = e ∧
      ((0 : BitVec 3) ++ bit a ++ bit b ++ bit c ++ bit d ++ bit e).getLsbD 1 = d ∧
      ((0 : BitVec 3) ++ bit a ++ bit b ++ bit c ++ bit d ++ bit e).getLsbD 2 = c ∧
      ((0 : BitVec 3) ++ bit a ++ bit b ++ bit c ++ bit d ++ bit e).getLsbD 3 = b ∧
      ((0 : BitVec 3) ++ bit a ++ bit b ++ bit c ++ bit d ++ bit e).getLsbD 4 = a ∧
      above 5 ((0 : BitVec 3) ++ bit a ++ bit b ++ bit c ++ bit d ++ bit e) = false := by
  revert a b c d e
  decide

/-- An optional field reads back as written: its presence bit says whether its byte is read (R104). -/
theorem optField_append {a b : Nat} (hab : a + b = 8) (x : Option (BitVec b)) :
    optField x.isSome b (((0 : BitVec a) ++ x.getD 0).cast hab) = x := by
  cases x with
  | none => rfl
  | some y =>
    refine congrArg some ?_
    refine BitVec.eq_of_getLsbD_eq fun i hi => ?_
    rw [BitVec.getLsbD_setWidth, BitVec.getLsbD_cast, BitVec.getLsbD_append, if_pos hi]
    simp [hi]

/-- The five bytes that encode a presence or a code, read back through their sub-fields (R104). -/
theorem decodeEntry_encodeEntry (e : SteerEntry) : decodeEntry (encodeEntry e) = some e := by
  obtain ⟨mark, valid, priority, mode⟩ := entryByte0 e.valid e.byChannel (markCode e.mark) e.priority
  obtain ⟨arrival, kinds, zero1⟩ := entryByte1 (arrivalCode e.arrival) (kindsBits e.kinds)
  obtain ⟨hasClass, hasTag, hasChannel, hasMeter, hasCounter, zero13⟩ := entryByte13 e.counter.isSome e.meter.isSome
    e.newChannel.isSome e.newTag.isSome e.classOverride.isSome
  have low2 := fun x : BitVec 2 => above_zero_append (w := 2) (toNat_zero_append (a := 6) x)
  have low4 := fun x : BitVec 4 => above_zero_append (w := 4) (toNat_zero_append (a := 4) x)
  have low5 := fun x : BitVec 5 => above_zero_append (w := 5) (toNat_zero_append (a := 3) x)
  have low6 := fun x : BitVec 6 => above_zero_append (w := 6) (toNat_zero_append (a := 2) x)
  have cls : optField e.classOverride.isSome 2 ((0 : BitVec 6) ++ e.classOverride.getD 0) = e.classOverride :=
    optField_append (a := 6) rfl e.classOverride
  have chan : optField e.newChannel.isSome 6 ((0 : BitVec 2) ++ e.newChannel.getD 0) = e.newChannel :=
    optField_append (a := 2) rfl e.newChannel
  have meter : optField e.meter.isSome 5 ((0 : BitVec 3) ++ e.meter.getD 0) = e.meter :=
    optField_append (a := 3) rfl e.meter
  have counter : optField e.counter.isSome 6 ((0 : BitVec 2) ++ e.counter.getD 0) = e.counter :=
    optField_append (a := 2) rfl e.counter
  have tag : (if e.newTag.isSome then some (e.newTag.getD 0) else none) = e.newTag := by
    cases e.newTag <;> rfl
  have byte0 : byteAt (encodeEntry e) 0 = bit e.valid ++ markCode e.mark ++ bit e.byChannel ++ e.priority := rfl
  have byte1 : byteAt (encodeEntry e) 1 = (0 : BitVec 1) ++ arrivalCode e.arrival ++ kindsBits e.kinds := rfl
  have byte6 : byteAt (encodeEntry e) 6 = (0 : BitVec 2) ++ e.chanValue := rfl
  have byte7 : byteAt (encodeEntry e) 7 = (0 : BitVec 2) ++ e.chanMask := rfl
  have byte12 : byteAt (encodeEntry e) 12 = (0 : BitVec 4) ++ deliveryBits e.delivery := rfl
  have byte13 : byteAt (encodeEntry e) 13 = (0 : BitVec 3) ++ bit e.counter.isSome ++ bit e.meter.isSome ++
    bit e.newChannel.isSome ++ bit e.newTag.isSome ++ bit e.classOverride.isSome := rfl
  have byte14 : byteAt (encodeEntry e) 14 = (0 : BitVec 6) ++ e.classOverride.getD 0 := rfl
  have byte17 : byteAt (encodeEntry e) 17 = (0 : BitVec 2) ++ e.newChannel.getD 0 := rfl
  have byte18 : byteAt (encodeEntry e) 18 = (0 : BitVec 3) ++ e.meter.getD 0 := rfl
  have byte19 : byteAt (encodeEntry e) 19 = (0 : BitVec 2) ++ e.counter.getD 0 := rfl
  have halves : halfAt (encodeEntry e) 8 = e.tagValue ∧ halfAt (encodeEntry e) 10 = e.tagMask ∧
      halfAt (encodeEntry e) 15 = e.newTag.getD 0 := ⟨half_halves _, half_halves _, half_halves _⟩
  obtain ⟨tagValue, tagMask, newTag⟩ := halves
  simp only [decodeEntry, byte0, byte1, byte6, byte7, byte12, byte13, byte14, byte17, byte18, byte19, mark, valid, priority, mode,
    arrival, kinds, zero1, hasClass, hasTag, hasChannel, hasMeter, hasCounter, zero13, low2, low4, low5, low6, cls, chan, meter,
    counter, tagValue, tagMask, newTag, tag, markOf_code, arrivalOf_code, kindsOf_bits, deliveryOf_bits, extract_append_low,
    Bool.and_false, Bool.or_false, Bool.false_eq_true, if_false]
  rfl

/-- The byte of a map entry: Defer, presence, class override and delivery (R104). -/
theorem mapByte (d p : Bool) (c : BitVec 2) (x : BitVec 4) :
    (bit d ++ bit p ++ c ++ x).getLsbD 7 = d ∧ (bit d ++ bit p ++ c ++ x).getLsbD 6 = p ∧
      (bit d ++ bit p ++ c ++ x).extractLsb' 4 2 = c ∧ (bit d ++ bit p ++ c ++ x).extractLsb' 0 4 = x := by
  revert d p c x
  decide

theorem decodeMapEntry_encodeMapEntry (m : MapEntry) : decodeMapEntry (encodeMapEntry m) = m := by
  obtain ⟨defer, present, cls, delivery⟩ := mapByte m.defer m.classOverride.isSome (m.classOverride.getD 0)
    (deliveryBits m.delivery)
  have override : (if m.classOverride.isSome then some (m.classOverride.getD 0) else none) = m.classOverride := by
    cases m.classOverride <;> rfl
  simp only [decodeMapEntry, encodeMapEntry, defer, present, cls, delivery, override, deliveryOf_bits]

/-- Settles O57: each layout's fields are read back where they were written, and a sent image is the header with its Seq set,
built anew. -/
theorem tableEntriesAndHeadersRoundTrip : Obligations.TableEntriesAndHeadersRoundTrip := by
  refine ⟨decodeEntry_encodeEntry, decodeMapEntry_encodeMapEntry, fun h q payload hf => ?_⟩
  rw [sentImage_encodeHeader, parseHeader_append]
  exact ⟨parseHeader_encodeHeader h, headerBad_encodeHeader hf, parseHeader_encodeHeader _,
    headerBad_encodeHeader (h := { h with seq := q }) hf⟩

end Sys2Proof.Machine

end

section
/-! The local egress: selection, stale heads removed, and the bytes the device takes (R176, R181, R182, R184). -/

namespace Sys2Proof.Machine

variable {s t : State}

/-! ### References dropped -/

/-- A record no holder is left of, its state by its place (R28, R29). -/
def State.unreferenced (s : State) (r : Nat) : State :=
  s.setRecord r { s.record r with refs := 0, state := if s.isQueued r then .queued else .waiting }

theorem State.dropRef_releases {r : Nat} (hr : (s.record r).refs = 1) (hb : s.onBacklog r = false)
    (hf : (s.record r).state ≠ .filling) : s.dropRef r = (s.unreferenced r).release r := by
  unfold State.dropRef
  rw [hr]
  exact if_pos (by simp [hb, hf])

theorem State.unreferenced_pages (s : State) (r : Nat) : ((s.unreferenced r).record r).pages = (s.record r).pages := by
  unfold State.unreferenced
  simp

theorem State.unreferenced_source (s : State) (r : Nat) : ((s.unreferenced r).record r).source = (s.record r).source := by
  unfold State.unreferenced
  simp

/-- The last reference dropped gives the record and its pages back (R29, R38). -/
theorem State.dropRef_last {r : Nat} (h : s.roomy) (hr : (s.record r).refs = 1) (hb : s.onBacklog r = false)
    (hf : (s.record r).state ≠ .filling) :
    (s.dropRef r).store.freeRecs = s.store.freeRecs ++ [r] ∧
      (s.dropRef r).store.freePages = s.store.freePages ++ (s.record r).pages ∧
      (s.dropRef r).store.held = s.store.held.on (· - (s.record r).pages.length) (s.record r).source := by
  obtain ⟨eq, -⟩ := (State.release_gaveBack (s := s.unreferenced r) h r).1
  rw [State.dropRef_releases hr hb hf, eq]
  refine ⟨rfl, congrArg (s.store.freePages ++ ·) (s.unreferenced_pages r), ?_⟩
  dsimp only
  rw [State.unreferenced_pages, State.unreferenced_source]
  rfl

/-- A reference that is not the last is only counted down. -/
theorem State.dropRef_shared {r : Nat} (hr : 2 ≤ (s.record r).refs) :
    (s.dropRef r).store.freeRecs = s.store.freeRecs ∧ (s.dropRef r).store.freePages = s.store.freePages ∧
      (s.dropRef r).store.held = s.store.held ∧ ((s.dropRef r).record r).refs + 1 = (s.record r).refs := by
  obtain ⟨n, hn⟩ := Nat.exists_eq_add_of_le' hr
  have shared : s.dropRef r = s.setRecord r
      { s.record r with refs := n + 1, state := if s.isQueued r then .queued else .waiting } := by
    unfold State.dropRef
    rw [hn]
    exact if_neg (by simp)
  rw [shared]
  refine ⟨rfl, rfl, rfl, ?_⟩
  simp [hn]

/-! ### Stale heads of the local port -/

/-- The head of a port's entries removed leaves the entries behind it (R65). -/
theorem QueueSet.entries_without_head {x : QueueSet} {e : Entry} {more : List Entry} (h : x.entries = e :: more) :
    (x.without e).entries = more := by
  obtain ⟨c0, c1, c2, c3⟩ := x
  cases c0 with
  | cons a as =>
    obtain ⟨rfl, rest⟩ := List.cons.inj h
    rw [← rest]
    simp [QueueSet.without, QueueSet.get, QueueSet.set, QueueSet.entries]
  | nil =>
    cases c1 with
    | cons a as =>
      obtain ⟨rfl, rest⟩ := List.cons.inj h
      rw [← rest]
      simp [QueueSet.without, QueueSet.get, QueueSet.set, QueueSet.entries]
    | nil =>
      cases c2 with
      | cons a as =>
        obtain ⟨rfl, rest⟩ := List.cons.inj h
        rw [← rest]
        simp [QueueSet.without, QueueSet.get, QueueSet.set, QueueSet.entries]
      | nil =>
        cases c3 with
        | cons a as =>
          obtain ⟨rfl, rest⟩ := List.cons.inj h
          rw [← rest]
          simp [QueueSet.without, QueueSet.get, QueueSet.set, QueueSet.entries]
        | nil => cases h

/-- A frame that only the removed entry holds. -/
def State.lastHeld (s : State) (r : Nat) : Prop :=
  (s.record r).refs = 1 ∧ s.onBacklog r = false ∧ (s.record r).state ≠ .filling

/-- Between `s` and `t` the entries `olds` left the front of the local port's queues, each counted as a residence discard (R181):
local egress selects on in `t`. -/
structure State.DroppedStale (s t : State) (olds : List Entry) : Prop where
  entries : ∀ more, s.loc.queues.entries = olds ++ more → t.loc.queues.entries = more
  egress : t.loc.egress = s.loc.egress
  stats : t.loc.stats = { s.loc.stats with residenceDiscards := raisedBy s.loc.stats.residenceDiscards olds.length }
  trunkA : t.trunkA = s.trunkA
  trunkB : t.trunkB = s.trunkB
  steer : t.steer = s.steer
  mgmt : t.mgmt = s.mgmt
  events : t.events = s.events
  mem : t.store.mem = s.store.mem
  params : t.params = s.params
  nodeTime : t.nodeTime = s.nodeTime
  arrival : ∀ r, (t.record r).arrival = (s.record r).arrival
  other : ∀ r, r ∉ olds.map Entry.frame → t.record r = s.record r
  last : (olds.map Entry.frame).Nodup → (∀ x ∈ olds, s.lastHeld x.frame) →
    t.store.freeRecs = s.store.freeRecs ++ olds.map Entry.frame ∧
      t.store.freePages = s.store.freePages ++ olds.flatMap (fun x => (s.record x.frame).pages)
  shared : (olds.map Entry.frame).Nodup → (∀ x ∈ olds, 2 ≤ (s.record x.frame).refs) →
    t.store.freeRecs = s.store.freeRecs ∧ ∀ x ∈ olds, (t.record x.frame).refs + 1 = (s.record x.frame).refs

theorem State.DroppedStale.nil (s : State) : s.DroppedStale s [] where
  entries _ h := h
  egress := rfl
  stats := by simp
  trunkA := rfl
  trunkB := rfl
  steer := rfl
  mgmt := rfl
  events := rfl
  mem := rfl
  params := rfl
  nodeTime := rfl
  arrival _ := rfl
  other _ _ := rfl
  last _ _ := by simp
  shared _ _ := by simp

/-- A local entry that is not watched, removed in a store with room. -/
theorem State.removeEntry_local {e : Entry} (hw : s.watches .l e.frame = false) :
    s.removeEntry .l e = (s.setQueues .l (s.loc.queues.without e)).dropRef e.frame := by
  have same := State.unwatch_other .l e.frame (s := s.setQueues .l (s.loc.queues.without e))
    ((State.watches_of_mgmt (by rfl) _ _).trans hw)
  exact congrArg (State.dropRef · e.frame) same

/-- One stale head removed and counted. -/
theorem State.droppedStale_head {e : Entry} (h : s.roomy) (hw : s.watches .l e.frame = false) :
    s.DroppedStale ((s.raiseLocal .residenceDiscards).removeEntry .l e) [e] ∧
      ((s.raiseLocal .residenceDiscards).removeEntry .l e).roomy := by
  have eq : (s.raiseLocal .residenceDiscards).removeEntry .l e =
      ((s.raiseLocal .residenceDiscards).setQueues .l (s.loc.queues.without e)).dropRef e.frame :=
    State.removeEntry_local hw
  rw [eq]
  generalize hu : (s.raiseLocal .residenceDiscards).setQueues .l (s.loc.queues.without e) = u
  have room : u.roomy := hu ▸ h
  have record : ∀ r, u.record r = s.record r := fun r => by subst hu; rfl
  have backlog : ∀ r, u.onBacklog r = s.onBacklog r := fun r => by subst hu; rfl
  have k := State.restored_dropRef room e.frame
  refine ⟨⟨fun more hm => ?_, ?_, ?_, ?_, ?_, ?_, ?_, ?_, ?_, ?_, ?_, fun r => ?_, fun r hr => ?_, fun _ ho => ?_, fun _ ho => ?_⟩,
    k.roomy⟩
  · rw [k.locQueues, ← hu]
    exact QueueSet.entries_without_head hm
  · rw [k.egress, ← hu]; rfl
  · rw [k.locStats, ← hu, List.length_singleton, ← raisedBy_satInc, raisedBy_zero]; rfl
  · exact (k.trunk .a).trans (hu ▸ rfl)
  · exact (k.trunk .b).trans (hu ▸ rfl)
  · rw [k.steer, ← hu]; rfl
  · rw [k.mgmt, ← hu]; rfl
  · rw [k.events, ← hu]; rfl
  · rw [k.mem, ← hu]; rfl
  · rw [k.params, ← hu]; rfl
  · rw [k.nodeTime, ← hu]; rfl
  · rw [State.arrival_dropRef room, record]
  · rw [State.record_dropRef (by simpa using hr) room, record]
  · obtain ⟨refs, onBacklog, filling⟩ := ho e (by simp)
    obtain ⟨recs, pages, -⟩ := State.dropRef_last (r := e.frame) room (by rw [record, refs]) (by rw [backlog, onBacklog])
      (by rw [record]; exact filling)
    rw [recs, pages, record, ← hu]
    refine ⟨rfl, ?_⟩
    rw [List.flatMap_singleton]
    rfl
  · obtain ⟨recs, -, -, refs⟩ := State.dropRef_shared (s := u) (r := e.frame) (by rw [record]; exact ho e (by simp))
    refine ⟨recs.trans (hu ▸ rfl), fun x hx => ?_⟩
    rw [List.mem_singleton.mp hx, refs, record]

/-- Heads that left after one another. -/
theorem State.DroppedStale.cons {u : State} {e : Entry} {olds : List Entry} (h : s.DroppedStale u [e])
    (g : u.DroppedStale t olds) : s.DroppedStale t (e :: olds) where
  entries more hm := g.entries more (h.entries _ hm)
  egress := g.egress.trans h.egress
  stats := by
    rw [g.stats, h.stats, List.length_singleton, ← raisedBy_satInc, raisedBy_zero, List.length_cons, ← raisedBy_satInc]
  trunkA := g.trunkA.trans h.trunkA
  trunkB := g.trunkB.trans h.trunkB
  steer := g.steer.trans h.steer
  mgmt := g.mgmt.trans h.mgmt
  events := g.events.trans h.events
  mem := g.mem.trans h.mem
  params := g.params.trans h.params
  nodeTime := g.nodeTime.trans h.nodeTime
  arrival r := (g.arrival r).trans (h.arrival r)
  other r hr := by
    rw [List.map_cons, List.mem_cons, not_or] at hr
    exact (g.other r hr.2).trans (h.other r (by simpa using hr.1))
  last hn ho := by
    obtain ⟨first, hn⟩ := List.nodup_cons.mp hn
    have kept : ∀ x ∈ olds, u.record x.frame = s.record x.frame := fun x hx => h.other _ fun he =>
      first (by rw [← List.mem_singleton.mp he]; exact List.mem_map_of_mem hx)
    obtain ⟨recs, pages⟩ := h.last (by simp) (fun x hx => ho x (by simp [List.mem_singleton.mp hx]))
    obtain ⟨recs', pages'⟩ := g.last hn fun x hx => by
      have held := ho x (List.mem_cons_of_mem _ hx)
      unfold State.lastHeld State.onBacklog at held ⊢
      rwa [kept x hx, h.steer]
    rw [recs', pages', recs, pages, List.append_assoc, List.append_assoc,
      List.flatMap_congr (fun x hx => congrArg FrameRecord.pages (kept x hx) : ∀ x ∈ olds, _)]
    simp
  shared hn ho := by
    obtain ⟨first, hn⟩ := List.nodup_cons.mp hn
    have kept : ∀ x ∈ olds, u.record x.frame = s.record x.frame := fun x hx => h.other _ fun he =>
      first (by rw [← List.mem_singleton.mp he]; exact List.mem_map_of_mem hx)
    obtain ⟨recs, refs⟩ := h.shared (by simp) (fun x hx => ho x (by simp [List.mem_singleton.mp hx]))
    obtain ⟨recs', refs'⟩ := g.shared hn fun x hx => by
      rw [kept x hx]
      exact ho x (List.mem_cons_of_mem _ hx)
    refine ⟨recs'.trans recs, fun x hx => ?_⟩
    rcases List.mem_cons.mp hx with rfl | hx
    · rw [g.other _ first]
      exact refs _ (by simp)
    · rw [refs' x hx, kept x hx]

/-- Local egress's selection past the stale heads: it goes on from a state in which they are gone (R181). -/
theorem State.selectLocal_stale (more : List Entry) (n : Nat) (olds : List Entry) : ∀ s : State,
    s.loc.queues.entries = olds ++ more → (∀ x ∈ olds, s.stale x.frame ∧ s.watches .l x.frame = false) → s.roomy →
    s.resetDue = false → ∃ u, s.selectLocal (olds.length + n) = u.selectLocal n ∧ s.DroppedStale u olds := by
  induction olds with
  | nil => exact fun s _ _ _ _ => ⟨s, by rw [List.length_nil, Nat.zero_add], .nil s⟩
  | cons e olds ih =>
    intro s hq ho hroom hd
    obtain ⟨stale, unwatched⟩ := ho e (List.mem_cons_self ..)
    obtain ⟨dropped, room⟩ := State.droppedStale_head hroom unwatched
    generalize hu : (s.raiseLocal .residenceDiscards).removeEntry .l e = u at dropped room
    have due : u.resetDue = false := (State.resetDue_of_mgmt s dropped.mgmt).trans hd
    obtain ⟨t, select, more⟩ := ih u (dropped.entries _ hq) (fun x hx => by
      obtain ⟨old, free⟩ := ho x (List.mem_cons_of_mem _ hx)
      refine ⟨?_, (State.watches_of_mgmt dropped.mgmt _ _).trans free⟩
      unfold State.stale
      rw [dropped.params, dropped.nodeTime, dropped.arrival]
      exact old) room due
    refine ⟨t, ?_, dropped.cons more⟩
    rw [List.length_cons, Nat.add_right_comm]
    have head : s.loc.queues.urgent = some e := by
      rw [QueueSet.urgent, hq]; rfl
    have step : s.selectLocal (olds.length + n + 1) = u.selectLocal (olds.length + n) := by
      rw [State.selectLocal, head]
      dsimp only
      rw [if_neg (by rw [(State.fresh_eq_false _).mpr stale]; exact Bool.false_ne_true), hu,
        if_neg (by rw [due]; exact Bool.false_ne_true)]
    rw [step, select]

/-- The local egress after a selection that finds these entries, the first of them fresh (R181). -/
def Egress.selected : List Entry → Egress
  | [] => .idle
  | e :: _ => .transfer e 0

/-- Local egress's selection with no stale head in front: the head's transfer starts, and with no entry nothing does. -/
theorem State.selectLocal_head {more : List Entry} (n : Nat) (hq : s.loc.queues.entries = more)
    (hf : ∀ x, more.head? = some x → ¬s.stale x.frame) (hi : s.loc.egress = .idle) :
    s.selectLocal (n + 1) = s.setEgress (.selected more) := by
  unfold State.selectLocal
  rw [QueueSet.urgent, hq]
  cases more with
  | nil =>
    change s = s.setEgress .idle
    rw [← hi]
    rfl
  | cons e more =>
    have fresh : s.fresh e.frame = true := by
      rw [← Bool.not_eq_false, State.fresh_eq_false]
      exact hf e rfl
    exact if_pos fresh

theorem exec_localEgressSelect (h : s.loc.egress = .idle) :
    exec .localEgressSelect s = .next (s.selectLocal (s.loc.queues.entries.length + 1)).settle := if_pos h

/-- The state in which the device has taken a frame's last byte and its entry has left the queues (R182). -/
def State.handedOut (s : State) (e : Entry) : State :=
  (({ s with loc := { s.loc with egress := .idle, lastOut := s.outboundLines } } : State).raiseLocal .framesOut).setQueues .l
    (s.loc.queues.without e)

theorem State.takeOutByte_last {e : Entry} {k : Nat} (he : s.loc.egress = .transfer e k)
    (hk : (s.record e.frame).size ≤ k + 1) (hw : s.watches .l e.frame = false) :
    s.takeOutByte = (s.handedOut e).dropRef e.frame := by
  have remove : ∀ v : State, v.mgmt = s.mgmt → v.loc.queues = s.loc.queues → v.removeEntry .l e =
      (v.setQueues .l (s.loc.queues.without e)).dropRef e.frame := fun v hm hq => by
    rw [State.removeEntry_local ((State.watches_of_mgmt hm _ _).trans hw), hq]
  unfold State.takeOutByte
  rw [he]
  dsimp only
  rw [if_pos hk]
  exact remove _ rfl rfl

/-- Settles O56: stale heads leave one after another, and the selection goes on from the state they leave. -/
theorem localEgressTransfers : Obligations.LocalEgressTransfers := by
  refine ⟨fun s hd => ⟨fun e more hi hq hr => ?_, fun e k he hk => ?_, fun b he => ?_⟩,
    fun s olds more hi hq ho hf hroom hd => ?_, fun s e k he hk hroom hd hw => ?_⟩
  · have notStale : ¬s.stale e.frame := fun ⟨h0, h1⟩ => hr.elim h0 (by omega)
    rw [exec_localEgressSelect hi, State.selectLocal_head _ hq (fun x hx => by cases hx; exact notStale) hi]
    exact congrArg Host.Outcome.next (State.settle_of_mgmt s rfl hd)
  · have body : s.takeOutByte = { s with loc := { s.loc with
        egress := .transfer e (k + 1)
        lastOut := some { data := byteAt (sentImage (s.frameBytes e.frame) 0) k, last := false, abort := false } } } := by
      unfold State.takeOutByte State.outboundLines
      rw [he]
      dsimp only
      rw [if_neg (by omega), decide_eq_false (by omega)]
      rfl
    exact congrArg Host.Outcome.next ((congrArg State.settle body).trans (State.settle_of_mgmt s rfl hd))
  · have body : s.takeOutByte = { s with loc := { s.loc with
        egress := .idle, lastOut := some { data := b, last := true, abort := true } } } := by
      unfold State.takeOutByte State.outboundLines
      rw [he]
      rfl
    exact congrArg Host.Outcome.next ((congrArg State.settle body).trans (State.settle_of_mgmt s rfl hd))
  · obtain ⟨u, select, dropped⟩ := State.selectLocal_stale more (more.length + 1) olds s hq ho hroom hd
    have stays : ∀ x, more.head? = some x → ¬u.stale x.frame := fun x hx => by
      unfold State.stale
      rw [dropped.params, dropped.nodeTime, dropped.arrival]
      exact hf x hx
    rw [State.selectLocal_head _ (dropped.entries _ hq) stays (dropped.egress.trans hi)] at select
    refine ⟨u.setEgress (.selected more), ?_, dropped.entries _ hq, by cases more <;> rfl, dropped.stats, dropped.trunkA,
        dropped.trunkB, dropped.steer, dropped.mgmt,
      dropped.events, dropped.mem, dropped.last, dropped.shared⟩
    rw [exec_localEgressSelect hi, hq, List.length_append, Nat.add_assoc, select]
    exact congrArg Host.Outcome.next (State.settle_of_mgmt s dropped.mgmt hd)
  · have lines : s.outboundLines =
        some { data := byteAt (sentImage (s.frameBytes e.frame) 0) k, last := true, abort := false } := by
      unfold State.outboundLines
      rw [he]
      dsimp only
      rw [decide_eq_true hk]
      rfl
    have k := State.restored_dropRef (s := s.handedOut e) hroom e.frame
    refine ⟨(s.handedOut e).dropRef e.frame, ?_, k.egress, ?_, k.locQueues, k.locStats, k.trunk .a, k.trunk .b, k.steer, k.mgmt,
      k.events, k.mem⟩
    · exact congrArg Host.Outcome.next ((congrArg State.settle (State.takeOutByte_last he hk hw)).trans
        (State.settle_of_mgmt s k.mgmt hd))
    · obtain ⟨st, x, eq, -⟩ := k
      rw [eq, ← lines]
      rfl

end Sys2Proof.Machine

end

section
/-! Local ingress: bytes taken, the header judged, admission asked and asked again (R176 to R180). -/

namespace Sys2Proof.Machine

variable {s t : State}

/-! ### Admission of a local frame -/

/-- A byte of a frame depends on the pages' bytes and the record's page list alone. -/
theorem State.frameByte_congr {r : Nat} (hm : t.store.mem = s.store.mem) (hp : (t.record r).pages = (s.record r).pages)
    (i : Nat) :
    t.frameByte r i = s.frameByte r i := by
  unfold State.frameByte FrameRecord.addr
  rw [hm, hp]

/-- A local frame refused, as the obligations word it. -/
theorem State.refuseLocal_eq (s : State) (why : RefuseReason) (b : Bool) :
    s.refuseLocal why b = s.localRefused (refuseCode why) b := rfl

/-- Between `s` and `t` a local frame with a prepared header is admitted as record `r` (R30, R178): its header is stored, and with
Length 0 it is handed to backlog L at once (R179). -/
structure State.LocalAdmitted (s : State) (h : List Byte) (len n r : Nat) (rest : List Nat) (t : State) : Prop where
  freeRecs : t.store.freeRecs = rest
  freePages : t.store.freePages = s.store.freePages.drop n
  held : t.store.held = s.store.held.on (· + n) .l
  record : t.record r =
    { state := if len = 0 then .waiting else .filling, source := .l, size := 10 + len
      pages := s.store.freePages.take n, arrival := s.nodeTime, refs := 0 }
  header : h.length = 10 → ∀ i, i < 10 → t.frameByte r i = byteAt h i
  loc : t.loc =
    { s.loc with
      ingress := if len = 0 then .idle else .payload r 0 len
      stats := if len = 0 then { s.loc.stats with framesIn := satInc s.loc.stats.framesIn } else s.loc.stats }
  steer : t.steer = { s.steer with backlogL := if len = 0 then s.steer.backlogL ++ [r] else s.steer.backlogL }
  events : t.events = s.events
  trunkA : t.trunkA = s.trunkA
  trunkB : t.trunkB = s.trunkB
  mgmt : t.mgmt = s.mgmt

section admission

variable {h : List Byte} {k len n : Nat} (hl : len = (parseHeader h).length.toNat) (hn : n = pagesNeeded len)
include hl hn

theorem State.askLocal_granted {r : Nat} {rest : List Nat} (hr : s.store.freeRecs = r :: rest)
    (hp : n + 34 ≤ s.store.freePages.length) (hq : s.store.held.get .l + n ≤ s.quota .l) :
    s.LocalAdmitted h len n r rest (s.askLocal h k) := by
  subst hn
  obtain ⟨w, granted, -⟩ := s.askRoom_roomy (src := .l) (len := len) hr hp hq (.inr hp)
  have filled := s.taken_record .l len r rest
  have bytes : h.length = 10 → ∀ i, i < 10 →
      (((s.taken .l len r rest).setWatermark w).fill r 0 h).frameByte r i = byteAt h i := fun hh i hi =>
    s.frameByte_fill_taken .l len r rest w (by omega) h (by omega) i (by omega)
  unfold State.askLocal
  dsimp only
  rw [← hl, granted]
  dsimp only
  have kept : (((s.taken .l len r rest).setWatermark w).fill r 0 h).record r = (s.taken .l len r rest).record r := by
    rw [State.fill_record]; rfl
  have frame := ((s.taken .l len r rest).setWatermark w).fill_eq r 0 h
  generalize ((s.taken .l len r rest).setWatermark w).fill r 0 h = v at bytes kept frame
  have record : v.record r = _ := kept.trans filled
  have events : v.events = s.events := (congrArg State.events frame).trans rfl
  have trunkA : v.trunkA = s.trunkA := (congrArg State.trunkA frame).trans rfl
  have trunkB : v.trunkB = s.trunkB := (congrArg State.trunkB frame).trans rfl
  have mgmt : v.mgmt = s.mgmt := (congrArg State.mgmt frame).trans rfl
  split
  · next hz =>
    have handed : (v.handOverLocal r).record r = { v.record r with state := .waiting, refs := 0 } :=
      Sparse.get_set_same FrameRecord.blank v.store.recs r _
    refine ⟨?_, ?_, ?_, ?_, fun hh i hi => ?_, ?_, ?_, ?_, ?_, ?_, ?_⟩
    · exact congrArg (fun u : State => u.store.freeRecs) frame
    · exact congrArg (fun u : State => u.store.freePages) frame
    · exact congrArg (fun u : State => u.store.held) frame
    · rw [handed, record, if_pos hz]
    · have same : (v.handOverLocal r).frameByte r i = v.frameByte r i :=
        State.frameByte_congr (s := v) (t := v.handOverLocal r) (r := r) rfl (by rw [handed]) i
      exact same.trans (bytes hh i hi)
    · rw [if_pos hz, if_pos hz, show (v.handOverLocal r).loc = { v.loc with
        ingress := .idle, stats := { v.loc.stats with framesIn := satInc v.loc.stats.framesIn } } from rfl, frame]
      rfl
    · rw [if_pos hz, show (v.handOverLocal r).steer = { v.steer with backlogL := v.steer.backlogL ++ [r] } from rfl, frame]
      rfl
    · exact events
    · exact trunkA
    · exact trunkB
    · exact mgmt
  · next hz =>
    refine ⟨?_, ?_, ?_, ?_, bytes, ?_, ?_, ?_, ?_, ?_, ?_⟩
    · exact congrArg (fun u : State => u.store.freeRecs) frame
    · exact congrArg (fun u : State => u.store.freePages) frame
    · exact congrArg (fun u : State => u.store.held) frame
    · rw [if_neg hz, ← record]; rfl
    · rw [if_neg hz, if_neg hz, frame]; rfl
    · rw [if_neg hz, frame]; rfl
    · exact events
    · exact trunkA
    · exact trunkB
    · exact mgmt

theorem State.askLocal_incurable (hq : s.quota .l < n) : s.askLocal h k = s.localRefused 4 (decide (len = 0)) := by
  subst hn
  unfold State.askLocal
  dsimp only
  rw [← hl, s.askRoom_refused (.inr (.inr (by omega))), decide_eq_true hq]
  rfl

theorem State.askLocal_waits (hq : n ≤ s.quota .l)
    (hc : s.store.freeRecs = [] ∨ s.store.freePages.length < n + 34 ∨ s.quota .l < s.store.held.get .l + n) :
    s.askLocal h k = { s with loc := { s.loc with ingress := .waitRoom h k } } := by
  subst hn
  unfold State.askLocal
  dsimp only
  rw [← hl, s.askRoom_refused (src := .l) (len := len) hc, decide_eq_false (Nat.not_lt.mpr hq)]
  rfl

end admission

/-- Settles O55: an admission asked again at an announced release is that of the header prepared before. -/
theorem localAdmissionRetryAsks : Obligations.LocalAdmissionRetryAsks := by
  intro s h k len n hi hl hn
  have asks : s.resetPending = false → exec .localAdmissionRetry s = .next (s.askLocal h k) := fun hp => by
    refine congrArg Host.Outcome.next ?_
    unfold State.retryLocal
    rw [hi]
    exact if_neg (by rw [hp]; exact Bool.false_ne_true)
  refine ⟨fun hp => ?_, fun hp => ⟨fun hq => ?_, fun hq hc => ?_, fun r rest hr hf hq => ?_⟩⟩
  · refine congrArg Host.Outcome.next ?_
    unfold State.retryLocal
    rw [hi]
    exact if_pos hp
  · rw [asks hp, State.askLocal_incurable hl hn hq]
  · rw [asks hp, State.askLocal_waits hl hn hq hc]
  · obtain ⟨h1, h2, h3, h4, h5, h6, h7, h8, h9, h10, h11⟩ := State.askLocal_granted (k := k) hl hn hr hf hq
    exact ⟨_, asks hp, h1, h2, h3, h4, h5, h6, h7, h8, h9, h10, h11⟩

/-! ### Bytes taken -/

theorem exec_localIngressByte_header {b : Byte} {last : Bool} {taken : List Byte} (h : s.loc.ingress = .header taken) :
    exec (.localIngressByte b last) s = .next (s.localHeaderByte (taken ++ [b]) last) := by
  refine congrArg Host.Outcome.next ?_
  unfold State.takeLocalByte State.inboundReady
  rw [h]
  rfl

theorem exec_localIngressByte_payload {b : Byte} {last : Bool} {r k len : Nat} (h : s.loc.ingress = .payload r k len) :
    exec (.localIngressByte b last) s = .next (s.localPayloadByte r k len b last) := by
  refine congrArg Host.Outcome.next ?_
  unfold State.takeLocalByte State.inboundReady
  rw [h]
  rfl

/-- A header byte before the tenth (R177). -/
theorem State.localHeaderByte_early {taken : List Byte} (h : taken.length < 10) :
    s.localHeaderByte taken false = { s with loc := { s.loc with ingress := .header taken } } ∧
      s.localHeaderByte taken true = s.localRefused 2 true := ⟨if_pos h, if_pos h⟩

theorem fieldsBad_iff (h : Header) : fieldsBad h = true ↔ kindOf h.kind = none ∨ h.zeros ≠ 0 ∨ 1025 ≤ h.length.toNat := by
  have max : Config.maxLength = 1024 := rfl
  simp [fieldsBad, max, or_assoc, Nat.succ_le_iff]

/-- The kinds a local frame may not have are those of the numbering protocol (R177). -/
theorem FrameKind.ordinary_iff (k : FrameKind) : k.ordinary = true ↔ k ≠ .enum ∧ k ≠ .enumEnd := by
  cases k <;> decide

/-- Settles O54: bytes of the header one by one, the judgement at the tenth, and the bytes of the payload. -/
theorem localIngressTakesBytes : Obligations.LocalIngressTakesBytes := by
  intro s b
  refine ⟨fun hi hp => ?_, fun h hi hl => ?_, fun taken last h len prepared n hi ht hh hl hn hpre => ?_,
    fun r k len a hi hs ha => ?_, fun r k len last hi hroom hlast => ?_, fun hi => ?_, fun h n last hi => ?_⟩
  · have first : ∀ last, exec (.localIngressByte b last) s = .next (s.localHeaderByte [b] last) := fun last => by
      refine congrArg Host.Outcome.next ?_
      unfold State.takeLocalByte State.inboundReady
      rw [hi, hp]
      rfl
    obtain ⟨more, refused⟩ := s.localHeaderByte_early (taken := [b]) (Nat.lt_of_sub_eq_succ rfl)
    exact ⟨(first false).trans (congrArg _ more), (first true).trans (congrArg _ refused)⟩
  · obtain ⟨more, refused⟩ := s.localHeaderByte_early (taken := h ++ [b])
      (by rw [List.length_append, List.length_singleton]; omega)
    exact ⟨(exec_localIngressByte_header hi).trans (congrArg _ more), (exec_localIngressByte_header hi).trans (congrArg _ refused)⟩
  · have ready : prepared = s.prepareHeader (taken ++ [b]) := by
      rw [hpre, hh]
      unfold State.prepareHeader Numbering.source Numbering.own
      cases s.numbering <;> rfl
    have length : len = (parseHeader (s.prepareHeader (taken ++ [b]))).length.toNat := by
      unfold State.prepareHeader
      rw [parseHeader_encodeHeader, hl, hh]
    have judged : exec (.localIngressByte b last) s = .next (s.judgeLocal (taken ++ [b]) last) := by
      rw [exec_localIngressByte_header hi]
      exact congrArg Host.Outcome.next (if_neg (by rw [List.length_append, ht, List.length_singleton]; decide))
    rw [judged, ready]
    have unfolded : s.judgeLocal (taken ++ [b]) last =
        if fieldsBad h || decide (kindOf h.kind = some .enum) || decide (kindOf h.kind = some .enumEnd) then
          s.refuseLocal .headerError last
        else if !s.numbering.isNumbered && decide (kindOf h.kind ≠ some .mreq) then s.refuseLocal .notNumbered last
        else if last != decide (len = 0) then s.refuseLocal .lengthMismatch last
        else if s.resetPending then s.setIngress (.waitRoom (s.prepareHeader (taken ++ [b])) 0)
        else s.askLocal (s.prepareHeader (taken ++ [b])) 0 := by
      rw [hl, hh]
      rfl
    rw [unfolded]
    refine ⟨fun hb => ?_, fun k hk ho hz hm => ?_⟩
    · refine congrArg Host.Outcome.next (if_pos ?_)
      have bad := (fieldsBad_iff h).mpr
      rw [← hl] at bad
      simp only [Bool.or_eq_true, decide_eq_true_eq]
      tauto
    · obtain ⟨notEnum, notEnd⟩ := (FrameKind.ordinary_iff k).mp ho
      have good : fieldsBad h = false := by
        rw [← Bool.not_eq_true, fieldsBad_iff, hk, ← hl]
        simp [hz]
        omega
      rw [if_neg (by simp [good, hk, notEnum, notEnd])]
      refine ⟨fun hu hq => ?_, fun hc => ?_⟩
      · exact congrArg Host.Outcome.next (if_pos (by simp [hu, hk, hq, Numbering.isNumbered]))
      · rw [if_neg (by
          rcases hc with ⟨own, up, hc⟩ | hc
          · simp [hc, Numbering.isNumbered]
          · simp [hk, hc])]
        refine ⟨fun hne => ?_, fun he => ?_⟩
        · exact congrArg Host.Outcome.next (if_pos (by
            rw [bne_iff_ne]
            exact fun eq => hne (by rw [eq, decide_eq_true_eq])))
        · have same : last = decide (len = 0) := by
            rw [Bool.eq_iff_iff, decide_eq_true_eq]
            exact he
          rw [if_neg (by rw [same]; simp)]
          refine ⟨fun hp => ?_, fun hp hq => ?_, fun hp hq hc => ?_, fun r rest hp hr hf hq => ?_⟩
          · exact congrArg Host.Outcome.next (if_pos hp)
          · rw [hp, if_neg Bool.false_ne_true, State.askLocal_incurable length hn hq, same]
          · rw [hp, if_neg Bool.false_ne_true, State.askLocal_waits length hn hq hc]
          · obtain ⟨h1, h2, h3, h4, h5, h6, h7, h8, h9, h10, h11⟩ := State.askLocal_granted (k := 0) length hn hr hf hq
            exact ⟨_, by rw [hp]; rfl, h1, h2, h3, h4, h5 rfl, h6, h7, h8, h9, h10, h11⟩
  · have written := s.writeFrameByte_eq hs ha (b := b)
    refine ⟨fun hk => ?_, fun hk => ?_⟩
    · rw [exec_localIngressByte_payload hi]
      unfold State.localPayloadByte
      dsimp only
      rw [decide_eq_false (by omega), written]
      rfl
    · rw [exec_localIngressByte_payload hi]
      unfold State.localPayloadByte
      dsimp only
      rw [decide_eq_true (by omega), written]
      rfl
  · refine ⟨s.release r, (State.release_gaveBack hroom r).1, ?_⟩
    rw [exec_localIngressByte_payload hi]
    unfold State.localPayloadByte
    cases last with
    | true =>
      have early : k + 1 < len := hlast.mp rfl
      dsimp only
      rw [decide_eq_false (by omega)]
      rfl
    | false =>
      have late : ¬k + 1 < len := fun h => Bool.false_ne_true (hlast.mpr h)
      dsimp only
      rw [decide_eq_true (by omega)]
      rfl
  · have taken : ∀ last, exec (.localIngressByte b last) s = .next (if last then s.setIngress .idle else s) := fun last => by
      refine congrArg Host.Outcome.next ?_
      unfold State.takeLocalByte State.inboundReady
      rw [hi]
      rfl
    exact ⟨taken false, taken true⟩
  · refine congrArg Host.Outcome.next ?_
    unfold State.takeLocalByte State.inboundReady
    rw [hi]
    rfl

end Sys2Proof.Machine

end

section
/-! Admission and release: the free lists, the watermark and STORE_LOW (R26, R30 to R32, R38, R41). -/

namespace Sys2Proof.Machine

variable {s t : State}

/-! ### The records that are not free -/

theorem State.mem_usedRecords {r : Nat} : r ∈ s.usedRecords ↔ r < 256 ∧ r ∉ s.store.freeRecs := by
  simp [State.usedRecords, show Config.recordCount = 256 from rfl]

theorem State.usedRecords_nodup (s : State) : s.usedRecords.Nodup := List.nodup_range.filter _

theorem State.usedRecords_congr (h : t.store.freeRecs = s.store.freeRecs) : t.usedRecords = s.usedRecords := by
  unfold State.usedRecords
  rw [h]

/-- A record taken from the head of the free list joins those that are not free. -/
theorem State.usedRecords_took {r : Nat} {rest : List Nat} (hr : s.store.freeRecs = r :: rest) (ht : t.store.freeRecs = rest)
    (hn : s.store.freeRecs.Nodup) (hl : r < 256) : t.usedRecords.Perm (r :: s.usedRecords) := by
  rw [hr, List.nodup_cons] at hn
  refine (List.perm_ext_iff_of_nodup t.usedRecords_nodup (List.nodup_cons.mpr ⟨?_, s.usedRecords_nodup⟩)).mpr fun x => ?_
  · rw [State.mem_usedRecords, hr]
    simp
  · rw [List.mem_cons, State.mem_usedRecords, State.mem_usedRecords, hr, ht, List.mem_cons, not_or]
    by_cases hx : x = r
    · subst hx
      simp [hl, hn.1]
    · simp [hx]

/-- A record returned leaves those that are not free. -/
theorem State.usedRecords_returned {r : Nat} (ht : t.store.freeRecs = s.store.freeRecs ++ [r]) (hf : r ∉ s.store.freeRecs)
    (hl : r < 256) : s.usedRecords.Perm (r :: t.usedRecords) := by
  refine (List.perm_ext_iff_of_nodup s.usedRecords_nodup (List.nodup_cons.mpr ⟨?_, t.usedRecords_nodup⟩)).mpr fun x => ?_
  · rw [State.mem_usedRecords, ht]
    simp
  · rw [List.mem_cons, State.mem_usedRecords, State.mem_usedRecords, ht, List.mem_append, List.mem_singleton, not_or]
    by_cases hx : x = r
    · subst hx
      simp [hl, hf]
    · simp [hx]

/-! ### Every page free or held once -/

theorem State.pagesBalanced_iff (s : State) :
    s.pagesBalanced ↔
      (s.store.freePages ++ s.usedRecords.flatMap (fun r => (s.record r).pages)).Perm (List.range Config.pageCount) := Iff.rfl

/-- The pages of a list of records read in another state are the same where their records are. -/
theorem State.flatMap_pages_congr {l : List Nat} (h : ∀ r ∈ l, t.record r = s.record r) :
    l.flatMap (fun r => (t.record r).pages) = l.flatMap (fun r => (s.record r).pages) :=
  List.flatMap_congr fun r hr => congrArg FrameRecord.pages (h r hr)

theorem State.takeRoom_cases {src : Source} {len r : Nat} (h : s.takeRoom src len = some (r, t)) :
    ∃ rest, s.store.freeRecs = r :: rest ∧ t = s.taken src len r rest ∧
      pagesNeeded len + reserveOf src ≤ s.store.freePages.length ∧
      s.store.held.get src + pagesNeeded len ≤ s.quota src := by
  unfold State.takeRoom at h
  split at h
  · cases h
  · next r' rest hr =>
    split at h
    · next hroom =>
      cases h
      rw [State.roomFor, Bool.and_eq_true, decide_eq_true_eq, decide_eq_true_eq] at hroom
      exact ⟨rest, hr, rfl, hroom⟩
    · cases h

theorem State.taken_record_other {src : Source} {len r x : Nat} {rest : List Nat} (h : x ≠ r) :
    (s.taken src len r rest).record x = s.record x :=
  by simp [State.record, State.taken, Sparse.get_set, h]

theorem State.pagesBalanced_taken {src : Source} {len r : Nat} {rest : List Nat} (hr : s.store.freeRecs = r :: rest)
    (hn : s.store.freeRecs.Nodup) (hl : r < 256) (h : s.pagesBalanced) : (s.taken src len r rest).pagesBalanced := by
  have used := State.usedRecords_took (t := s.taken src len r rest) hr rfl hn hl
  have others : ∀ x ∈ s.usedRecords, (s.taken src len r rest).record x = s.record x := fun x hx =>
    State.taken_record_other fun e => (State.mem_usedRecords.mp hx).2 (by rw [hr, e]; exact List.mem_cons_self ..)
  rw [State.pagesBalanced_iff] at h ⊢
  refine List.Perm.trans ?_ h
  refine (List.Perm.append_left _ (used.flatMap_right _)).trans ?_
  rw [List.flatMap_cons, State.flatMap_pages_congr others, State.taken_record, ← List.append_assoc]
  refine List.Perm.append_right _ ?_
  refine List.perm_append_comm.trans ?_
  exact .of_eq (List.take_append_drop ..)

theorem State.pagesBalanced_returnRoom {r : Nat} (hl : r < 256) (hf : r ∉ s.store.freeRecs) (h : s.pagesBalanced) :
    (s.returnRoom r).pagesBalanced := by
  have used := State.usedRecords_returned (t := s.returnRoom r) rfl hf hl
  rw [State.pagesBalanced_iff] at h ⊢
  refine List.Perm.trans ?_ h
  change ((s.store.freePages ++ (s.record r).pages) ++ (s.returnRoom r).usedRecords.flatMap (fun x => (s.record x).pages)).Perm _
  rw [List.append_assoc]
  exact (List.Perm.append_left _ (used.flatMap_right (fun x => (s.record x).pages))).symm

/-! ### The cache at a hand-over -/

/-- A response held by the cache (R160): one more reference, its state by its holders (R28). -/
def State.retained (s : State) (r : Nat) : State :=
  s.setRecord r { s.record r with
    refs := (s.record r).refs + 1, state := if s.isQueued r then .queued else .waiting }

/-- The cache made ready for a response (R160): its requester's entry, or the least recent of eight, gone. -/
def State.makeWay (s : State) (requester : Station) : State :=
  match s.mgmt.cache.find? (fun x => x.requester == requester) with
  | some old => (s.setCache (s.mgmt.cache.erase old)).dropRef old.frame
  | none => if s.mgmt.cache.length < 8 then s else s.evict

theorem State.cacheResponse_eq (s : State) (c : CacheEntry) :
    s.cacheResponse c = ((s.retained c.frame).makeWay c.requester).setCache
      (((s.retained c.frame).makeWay c.requester).mgmt.cache ++ [c]) := rfl

/-! ### What follows the response's placement -/

/-- What the hand-over leaves of the state once the response is placed: all but the management engine, the books of the store, the
references and what local ingress has been told. -/
structure State.PlacedStays (s t : State) : Prop where
  roomy : t.roomy
  events : t.events = s.events
  session : t.session = s.session
  params : t.params = s.params
  steer : t.steer = s.steer
  queues : ∀ y, t.queues y = s.queues y
  bytes : ∀ r, t.frameBytes r = s.frameBytes r

theorem State.PlacedStays.trans (h : s.PlacedStays t) (g : t.PlacedStays u) : s.PlacedStays u where
  roomy := g.roomy
  events := g.events.trans h.events
  session := g.session.trans h.session
  params := g.params.trans h.params
  steer := g.steer.trans h.steer
  queues y := (g.queues y).trans (h.queues y)
  bytes r := (g.bytes r).trans (h.bytes r)

/-- A change of the management engine alone. -/
theorem State.placedStays_mgmt (h : s.roomy) (m : Mgmt) : s.PlacedStays { s with mgmt := m } where
  roomy := h
  events := rfl
  session := rfl
  params := rfl
  steer := rfl
  queues y := by cases y <;> rfl
  bytes _ := rfl

/-- A change of one record's references and state. -/
theorem State.placedStays_setRecord (h : s.roomy) (r n : Nat) (x : RecordState) :
    s.PlacedStays (s.setRecord r { s.record r with refs := n, state := x }) where
  roomy := h
  events := rfl
  session := rfl
  params := rfl
  steer := rfl
  queues y := by cases y <;> rfl
  bytes y := by
    refine State.frameBytes_congr rfl ?_ ?_
    all_goals
      rw [State.record_setRecord]
      split
      · next e => rw [e]
      · rfl

theorem State.placedStays_release (h : s.roomy) (r : Nat) : s.PlacedStays (s.release r) := by
  have k := State.restored_release h r
  obtain ⟨e, -⟩ := (State.release_gaveBack h r).1
  have record : ∀ y, (s.release r).record y = s.record y := fun y => by rw [e]; rfl
  exact ⟨k.roomy, k.events, k.session, k.params, k.steer, k.queues, fun y =>
    State.frameBytes_congr k.mem (by rw [record]) (by rw [record])⟩

theorem State.placedStays_dropRef (h : s.roomy) (r : Nat) : s.PlacedStays (s.dropRef r) := by
  unfold State.dropRef
  split
  · exact s.placedStays_mgmt h s.mgmt
  · next n _ =>
    have set := State.placedStays_setRecord h r n (if s.isQueued r then .queued else .waiting)
    dsimp only
    split
    · exact set.trans (State.placedStays_release set.roomy r)
    · exact set

theorem State.placedStays_mgmt_dropRef (h : s.roomy) (m : Mgmt) (r : Nat) :
    s.PlacedStays (State.dropRef { s with mgmt := m } r) :=
  (State.placedStays_mgmt h m).trans (State.placedStays_dropRef (s := { s with mgmt := m }) h r)

theorem State.placedStays_makeWay (h : s.roomy) (requester : Station) : s.PlacedStays (s.makeWay requester) := by
  unfold State.makeWay
  split
  · exact State.placedStays_mgmt_dropRef h _ _
  · split
    · exact s.placedStays_mgmt h s.mgmt
    · unfold State.evict
      split
      · exact s.placedStays_mgmt h s.mgmt
      · exact State.placedStays_mgmt_dropRef h _ _

theorem State.placedStays_cacheResponse (h : s.roomy) (c : CacheEntry) : s.PlacedStays (s.cacheResponse c) := by
  have held : s.PlacedStays (s.retained c.frame) := State.placedStays_setRecord h c.frame _ _
  have way := State.placedStays_makeWay held.roomy c.requester
  rw [State.cacheResponse_eq]
  exact (held.trans way).trans (State.placedStays_mgmt way.roomy _)

theorem State.placedStays_endRequest (h : s.roomy) : s.PlacedStays s.endRequest := by
  unfold State.endRequest
  split
  · exact s.placedStays_mgmt h s.mgmt
  · exact State.placedStays_mgmt_dropRef h _ _

/-- A frame placed by its Destination: its port's queue of class 0 takes it where there is room, and no byte of it changes. -/
theorem State.placeByDest_spec (h : s.roomy) (d : Station) (r : Nat) :
    (s.placeByDest d r).roomy ∧ (s.placeByDest d r).events = s.events ∧ (s.placeByDest d r).session = s.session ∧
      (s.placeByDest d r).params = s.params ∧ (s.placeByDest d r).steer = s.steer ∧
      (s.placeByDest d r).frameBytes r = s.frameBytes r ∧
      ∀ y, (s.placeByDest d r).queues y =
        if s.routeByDest d = some y ∧ s.canPlace y 0 = true then (s.queues y).push 0 r else s.queues y := by
  unfold State.placeByDest
  split
  · next q hq =>
    cases hc : s.canPlace q 0 with
    | true =>
      rw [State.place_taken hc]
      have record := s.record_enqueue_same q 0 r
      refine ⟨?_, ?_, ?_, ?_, ?_, ?_, fun y => ?_⟩
      · rw [State.enqueue_frame]; exact h
      · rw [State.enqueue_frame]
      · rw [State.enqueue_frame]
      · rw [State.enqueue_frame]
      · rw [State.enqueue_frame]
      · exact State.frameBytes_congr (by rw [State.enqueue_frame]) (by rw [record]) (by rw [record])
      · rw [State.queues_enqueue]
        by_cases hy : y = q
        · subst hy
          rw [if_pos rfl, if_pos ⟨hq, hc⟩]
        · rw [if_neg hy, if_neg fun e => hy (Option.some.inj (e.1.symm.trans hq))]
    | false =>
      rw [State.place_skipped hc]
      refine ⟨by cases q <;> exact h, by cases q <;> rfl, by cases q <;> rfl, by cases q <;> rfl, by cases q <;> rfl,
        by cases q <;> rfl, fun y => ?_⟩
      rw [if_neg fun e => by
        rw [Option.some.inj (hq.symm.trans e.1), e.2] at hc
        cases hc]
      cases q <;> cases y <;> rfl
  · next hq => exact ⟨h, rfl, rfl, rfl, rfl, rfl, fun y => by rw [if_neg (by rw [hq]; rintro ⟨⟨⟩, -⟩)]⟩

/-! ### The hand-over -/

/-- A response admitted is filled, placed and cached in the state its admission leaves. -/
theorem State.respond_admitted {e : Execution} {payload : List Byte} {r : Nat} {u : State}
    (hp : payload = responsePayload e.id e.malformed e.done)
    (h : s.admitResponse payload.length (s.mgmt.cache.length + 1) = (some r, u)) :
    s.respond e =
      (((u.fill r 0 (encodeHeader (u.responseHeader e payload.length) ++ payload)).placeByDest e.requester r).cacheResponse
        { requester := e.requester, id := e.id, frame := r },
        (u.fill r 0 (encodeHeader (u.responseHeader e payload.length) ++ payload)).watchedFor e.requester r) := by
  unfold State.respond
  dsimp only
  rw [← hp, h]

theorem State.admitResponse_granted {len n r : Nat} {u : State} (h : s.askRoom .i len = .granted r u) :
    s.admitResponse len (n + 1) = (some r, u) := by
  unfold State.admitResponse
  rw [h]

theorem exec_responseHandover_done {e : Execution} (hx : s.mgmt.executor = .executing e) (ht : e.todo = []) :
    exec .responseHandover s = .next (s.handOver e).settle := by
  show execResponseHandover s = _
  unfold execResponseHandover
  rw [hx]
  dsimp only
  rw [ht]
  rfl

/-- A hand-over that records no reset resets nothing. -/
theorem State.handOver_settle {e : Execution} (hr : e.reset = none) : (s.handOver e).settle = s.handOver e := by
  refine (s.handOver e).settle_of_not_due ?_
  unfold State.resetDue
  obtain ⟨w, executor⟩ : ∃ w, (s.handOver e).mgmt.executor = afterExecution e.reset w := ⟨_, rfl⟩
  rw [executor, hr]
  rfl

/-- A hand-over whose response is admitted at once, in a store with room after it, raises no event beside the admission's. -/
theorem State.handOver_events {e : Execution} {r : Nat} {u : State}
    (h : (if e.malformed then s else s.raiseMgmt .requestsExecuted).askRoom .i
      (responsePayload e.id e.malformed e.done).length = .granted r u) (hu : u.roomy) :
    (s.handOver e).events = u.events := by
  have responded := State.respond_admitted rfl (State.admitResponse_granted h)
  have events : ∀ v : State, (v.endRequest.setExecutor (afterExecution e.reset
      ((if e.malformed then s else s.raiseMgmt .requestsExecuted).respond e).2)).events = v.endRequest.events := fun _ => rfl
  unfold State.handOver
  dsimp only
  rw [events, responded]
  generalize hz : u.fill r 0 _ = z
  have room : z.roomy := by
    rw [← hz]
    unfold State.roomy
    rw [State.fill_freePages, State.fill_watermark]
    exact hu
  obtain ⟨placedRoom, placedEvents, -⟩ := State.placeByDest_spec room e.requester r
  have cached := State.placedStays_cacheResponse placedRoom { requester := e.requester, id := e.id, frame := r }
  rw [(State.placedStays_endRequest cached.roomy).events, cached.events, placedEvents, ← hz, State.fill_events]

/-- An admission beyond the reserve raises STORE_LOW behind the waiting events, and the watermark is LOW after it (R41). -/
theorem State.askRoom_low {src : Source} {len r : Nat} {rest : List Nat} (hr : s.store.freeRecs = r :: rest)
    (hf : pagesNeeded len + reserveOf src ≤ s.store.freePages.length)
    (hq : s.store.held.get src + pagesNeeded len ≤ s.quota src) (hw : s.store.watermark = .armed)
    (hp : s.store.freePages.length < pagesNeeded len + 34) (he : s.events.records ≠ [])
    (hl : s.events.records.length < 32) :
    ∃ u, s.askRoom src len = .granted r u ∧ u.store.watermark = .low ∧ u.events.records = s.events.records ++
      [{ seq := s.events.nextSeq, kind := .storeLow, port := none, time := s.nodeTime, detail := none }] := by
  have fewer : (s.taken src len r rest).store.freePages.length < 34 := by
    simp [State.taken]
    omega
  have moved := (s.taken src len r rest).examine_moved.1 hw fewer
  have raised : ∀ v : State, v.events = s.events → v.nodeTime = s.nodeTime →
      (v.raiseEvent .storeLow none none).store = v.store ∧
      (v.raiseEvent .storeLow none none).events.records = s.events.records ++
        [{ seq := s.events.nextSeq, kind := .storeLow, port := none, time := s.nodeTime, detail := none }] := by
    intro v hv hn
    rw [State.raiseEvent_behind _ _ _ (by rwa [hv]), State.append_stored (by rwa [hv]), hv]
    refine ⟨rfl, ?_⟩
    unfold State.newRecord
    rw [hv, hn]
  obtain ⟨store, records⟩ := raised { s.taken src len r rest with
    store := { (s.taken src len r rest).store with watermark := .low } } rfl rfl
  refine ⟨(s.taken src len r rest).examine, ?_, ?_, ?_⟩
  · unfold State.askRoom
    rw [s.takeRoom_granted hr hf hq]
  · rw [moved, store]
  · rw [moved, records]

/-- The announcement of a release, read from what local ingress waits for (R34). -/
theorem State.announce_cases (s : State) : s.announce = s ∨ ∃ x, s.announce = s.setIngress x := by
  unfold State.announce
  split
  · split
    · exact .inl rfl
    · exact .inr ⟨_, rfl⟩
  · exact .inl rfl

/-- A release from a LOW watermark arms it at 51 free pages (R41). -/
theorem State.watermark_release_low {r : Nat} (h : s.store.watermark = .low) :
    (s.release r).store.watermark =
      (if 51 ≤ s.store.freePages.length + (s.record r).pages.length then .armed else .low) := by
  have kept : (s.release r).store.watermark = (s.returnRoom r).examine.store.watermark := congrArg Store.watermark
    (State.announce_store (s := (s.returnRoom r).examine))
  obtain ⟨-, -, armed, low⟩ := (s.returnRoom r).examine_moved
  have count : (s.returnRoom r).store.freePages.length = s.store.freePages.length + (s.record r).pages.length :=
    List.length_append
  rw [kept]
  split
  · next hp => rw [armed h (by rw [count]; exact hp)]
  · next hp =>
    rw [low h (by rw [count]; omega)]
    exact h

/-- The obligation's count of pages is the model's (R26). -/
theorem pagesNeeded_eq (len : Nat) : pagesNeeded len = (10 + len + 63) / 64 := rfl

theorem reserveOf_eq (src : Source) : reserveOf src = if src = .i then 0 else 34 := by
  cases src <;> rfl

/-- Settles O58: the books of the free lists at one admission and at one release, and the two commands that show STORE_LOW and the
re-arming. -/
theorem admissionReleaseAndWatermark : Obligations.AdmissionReleaseAndWatermark := by
  refine ⟨fun s hb hn hl => ⟨fun src len r t ht => ?_, fun r hr hf => ?_⟩, fun s src len n keep hnn hk => ⟨fun r free hr hf hq => ?_,
    fun hc => ?_⟩, fun s r => ?_, fun s e n r free hx ht hreset hnn hr hf hq hw hlow he hlen => ?_,
    fun s e k he hs hrefs hb hfill hw hp => ?_⟩
  · obtain ⟨rest, hr, rfl, -⟩ := State.takeRoom_cases ht
    have first : r < 256 := hl r (by rw [hr]; exact List.mem_cons_self ..)
    refine ⟨State.pagesBalanced_taken hr hn first hb, ?_⟩
    rw [hr] at hn
    exact (List.nodup_cons.mp hn).2
  · exact ⟨State.pagesBalanced_returnRoom hr hf hb, List.nodup_append.mpr ⟨hn, List.nodup_singleton r, by
      intro x hx y hy hxy
      exact hf (by rwa [← List.mem_singleton.mp hy, ← hxy])⟩⟩
  · subst hnn hk
    rw [← reserveOf_eq, ← pagesNeeded_eq] at hf
    refine ⟨(s.taken src len r free).examine, ?_, State.examine_moved⟩
    unfold State.askRoom
    rw [s.takeRoom_granted hr hf hq]
  · subst hnn hk
    rw [← reserveOf_eq, ← pagesNeeded_eq] at hc
    exact s.askRoom_refused hc
  · exact ⟨(s.returnRoom r).examine, State.examine_moved, rfl⟩
  · subst hnn
    have counted : ∀ u : State, u.events = s.events → u.nodeTime = s.nodeTime → u.store = s.store → u.params = s.params →
        ∃ v, u.askRoom .i (responsePayload e.id e.malformed e.done).length = .granted r v ∧ v.store.watermark = .low ∧
          v.events.records = s.events.records ++
            [{ seq := s.events.nextSeq, kind := .storeLow, port := none, time := s.nodeTime, detail := none }] := by
      intro u ue un us up
      rw [← ue, ← un]
      refine State.askRoom_low (s := u) (rest := free) (by rw [us, hr]) (by rw [us]; exact hf) ?_ (by rw [us, hw])
        (by rw [us]; exact hlow) (by rw [ue]; exact he) (by rw [ue]; exact hlen)
      rw [us]
      unfold State.quota at hq ⊢
      rw [up]
      exact hq
    obtain ⟨v, granted, low, records⟩ := counted (if e.malformed then s else s.raiseMgmt .requestsExecuted)
      (by split <;> rfl) (by split <;> rfl) (by split <;> rfl) (by split <;> rfl)
    refine ⟨s.handOver e, ?_, ?_⟩
    · rw [exec_responseHandover_done hx ht, State.handOver_settle hreset]
    · rw [State.handOver_events granted (.inl low), records]
  · have unwatched : s.watches .l e.frame = false := State.watches_of_not_pending hp .l e.frame
    have room : (s.handedOut e).roomy := .inl hw
    have k := State.restored_dropRef room e.frame
    have due : s.resetDue = false := State.resetDue_of_not_pending s hp
    refine ⟨(s.handedOut e).dropRef e.frame, ?_, k.events, ?_, ?_⟩
    · exact congrArg Host.Outcome.next ((congrArg State.settle (State.takeOutByte_last he hs unwatched)).trans
        (State.settle_of_mgmt s k.mgmt due))
    · exact (State.dropRef_last room hrefs hb hfill).1
    · rw [State.dropRef_releases (s := s.handedOut e) hrefs hb hfill,
        State.watermark_release_low (s := (s.handedOut e).unreferenced e.frame) hw, State.unreferenced_pages]
      rfl

end Sys2Proof.Machine

end

section
/-! RESPONSE_HANDOVER (R152, R160, R161): the response built, placed and cached, the cache evicted for room, the response
dropped. -/

namespace Sys2Proof.Machine

variable {s t u : State}

/-! ### The management engine at a hand-over -/

/-- The cache without the entry a requester's response takes the place of (R160). -/
def cacheRoom (cache : List CacheEntry) (requester : Station) : List CacheEntry :=
  match cache.find? (fun x => x.requester == requester) with
  | some old => cache.erase old
  | none => if cache.length < 8 then cache else cache.drop 1

theorem State.evict_mgmt (s : State) : s.evict.mgmt = { s.mgmt with cache := s.mgmt.cache.drop 1 } := by
  unfold State.evict
  cases hc : s.mgmt.cache with
  | nil => exact congrArg (fun l => { s.mgmt with cache := l }) hc
  | cons c rest => exact State.dropRef_mgmt _ c.frame

theorem State.makeWay_mgmt (s : State) (requester : Station) :
    (s.makeWay requester).mgmt = { s.mgmt with cache := cacheRoom s.mgmt.cache requester } := by
  unfold State.makeWay cacheRoom
  cases s.mgmt.cache.find? (fun x => x.requester == requester) with
  | some old => exact State.dropRef_mgmt _ old.frame
  | none =>
    dsimp only
    split
    · rfl
    · exact s.evict_mgmt

theorem State.cacheResponse_mgmt (s : State) (c : CacheEntry) :
    (s.cacheResponse c).mgmt = { s.mgmt with cache := cacheRoom s.mgmt.cache c.requester ++ [c] } := by
  have way := (s.retained c.frame).makeWay_mgmt c.requester
  rw [State.cacheResponse_eq]
  unfold State.setCache
  dsimp only
  rw [way]
  rfl

theorem State.endRequest_mgmt {q : Request} {more : List Request} (h : s.mgmt.queue = q :: more) :
    s.endRequest.mgmt = { s.mgmt with queue := more } := by
  unfold State.endRequest
  rw [h]
  exact State.dropRef_mgmt _ q.frame

/-- The state a hand-over starts from: the request counted as executed, or not (R149). -/
def State.counting (s : State) (e : Execution) : State := if e.malformed then s else s.raiseMgmt .requestsExecuted

theorem State.counting_eq {e : Execution} {stats : MgmtStats}
    (h : stats = if e.malformed then s.mgmt.stats
      else { s.mgmt.stats with requestsExecuted := satInc s.mgmt.stats.requestsExecuted }) :
    s.counting e = { s with mgmt := { s.mgmt with stats := stats } } := by
  rw [h]
  unfold State.counting
  split <;> rfl

theorem State.handOver_eq (s : State) (e : Execution) :
    s.handOver e = ((s.counting e).respond e).1.endRequest.setExecutor
        (afterExecution e.reset ((s.counting e).respond e).2) := rfl

/-- The engine after a hand-over whose response was admitted in `u` (R148, R160). -/
theorem State.handOver_mgmt {e : Execution} {payload : List Byte} {q : Request} {more : List Request} {r : Nat}
    (hp : payload = responsePayload e.id e.malformed e.done)
    (h : (s.counting e).admitResponse payload.length ((s.counting e).mgmt.cache.length + 1) = (some r, u))
    (hr : e.reset = none) (hq : u.mgmt.queue = q :: more) :
    (s.handOver e).mgmt = { u.mgmt with
      executor := .idle, queue := more
      cache := cacheRoom u.mgmt.cache e.requester ++ [{ requester := e.requester, id := e.id, frame := r }] } := by
  have responded := State.respond_admitted hp h
  generalize hz : u.fill r 0 (encodeHeader (u.responseHeader e payload.length) ++ payload) = z at responded
  have zm : (z.placeByDest e.requester r).mgmt = u.mgmt := (State.placeByDest_mgmt z e.requester r).trans (hz ▸ u.fill_mgmt r _ 0)
  have cached := (z.placeByDest e.requester r).cacheResponse_mgmt { requester := e.requester, id := e.id, frame := r }
  rw [zm] at cached
  have queue : ((z.placeByDest e.requester r).cacheResponse { requester := e.requester, id := e.id, frame := r }).mgmt.queue =
      q :: more := by rw [cached]; exact hq
  rw [State.handOver_eq, responded, hr]
  have ended := State.endRequest_mgmt queue
  rw [cached] at ended
  exact congrArg (fun m : Mgmt => { m with executor := .idle }) ended

/-! ### Eviction -/

/-- The statistics of the engine beside an eviction. -/
theorem State.evict_raiseMgmt (s : State) (k : MgmtStat) : (s.raiseMgmt k).evict = s.evict.raiseMgmt k := by
  have same : (s.raiseMgmt k).mgmt.cache = s.mgmt.cache := rfl
  unfold State.evict
  rw [same]
  split
  · rfl
  · next c rest _ => exact leavesAside_dropRef c.frame (s.setCache rest) ⟨id, fun m => { m with stats := m.stats.on satInc k }⟩

theorem State.counting_evict (s : State) (e : Execution) : (s.counting e).evict = s.evict.counting e := by
  unfold State.counting
  split
  · rfl
  · exact s.evict_raiseMgmt _

/-- A response refused room is that of the node with its least recent response evicted (R160). -/
theorem State.respond_evict {e : Execution} {payload : List Byte} {c : CacheEntry} {older : List CacheEntry}
    (hp : payload = responsePayload e.id e.malformed e.done) (hc : s.mgmt.cache = c :: older)
    (hl : s.lacksRoom (pagesNeeded payload.length)) : s.respond e = s.evict.respond e := by
  have fuel : s.evict.mgmt.cache.length + 1 = s.mgmt.cache.length := by
    rw [State.evict_mgmt, hc]
    rfl
  have again : s.admitResponse payload.length (s.mgmt.cache.length + 1) =
      s.evict.admitResponse payload.length (s.evict.mgmt.cache.length + 1) := by
    rw [fuel, State.admitResponse, s.askRoom_refused (src := .i) (len := payload.length) hl]
    dsimp only
    rw [if_neg (by rw [hc]; exact Bool.false_ne_true)]
  unfold State.respond
  dsimp only
  rw [← hp, again]

/-! ### The obligation -/

theorem State.requestHeader_built {len r : Nat} {rest : List Nat} {w : Watermark} {q : Request} {more : List Request}
    (hq : s.mgmt.queue = q :: more) (hne : q.frame ≠ r) :
    State.requestHeader ((s.taken .i len r rest).setWatermark w) = s.header q.frame := by
  have queue : ((s.taken .i len r rest).setWatermark w).mgmt.queue = q :: more := hq
  unfold State.requestHeader
  rw [queue]
  exact State.header_congr rfl (congrArg FrameRecord.pages
    (State.taken_record_other (s := s) (src := .i) (len := len) (rest := rest) hne))

/-- A response admitted with room: where it is placed, what it is built of, and what else the hand-over leaves as it was. -/
theorem State.handOver_placed {e : Execution} {payload : List Byte} {r : Nat}
    (hp : payload = responsePayload e.id e.malformed e.done) (hg : s.givesRoom r (pagesNeeded payload.length)) :
    ∃ u, (s.counting e).admitResponse payload.length ((s.counting e).mgmt.cache.length + 1) = (some r, u) ∧
      u.mgmt = (s.counting e).mgmt ∧ (s.handOver e).session = s.session ∧ (s.handOver e).params = s.params ∧
      (s.handOver e).steer = s.steer ∧ (s.handOver e).events = s.events ∧
      (∀ y, (s.handOver e).queues y =
        if s.routeByDest e.requester = some y ∧ s.canPlace y 0 = true then (s.queues y).push 0 r else s.queues y) ∧
      (s.store.freePages.Nodup → (s.handOver e).frameBytes r =
        encodeHeader (u.responseHeader e payload.length) ++ payload) ∧
      (∀ q more, s.mgmt.queue = q :: more → q.frame ≠ r → u.requestHeader = s.header q.frame) ∧ u.numbering = s.numbering := by
  obtain ⟨⟨rest, hf⟩, hpages, hquota, hw⟩ := hg
  have counted : ∃ stats, s.counting e = { s with mgmt := { s.mgmt with stats := stats } } := ⟨_, State.counting_eq rfl⟩
  obtain ⟨stats, counted⟩ := counted
  obtain ⟨w, granted, room⟩ := State.askRoom_roomy (s := { s with mgmt := { s.mgmt with stats := stats } }) (src := .i)
    (len := payload.length) hf hpages hquota hw
  rw [counted]
  have admitted := State.admitResponse_granted (n := s.mgmt.cache.length) granted
  have responded := State.respond_admitted hp admitted
  refine ⟨_, admitted, rfl, ?_⟩
  have header := fun q more (hq : s.mgmt.queue = q :: more) (hne : q.frame ≠ r) => State.requestHeader_built
    (s := { s with mgmt := { s.mgmt with stats := stats } }) (len := payload.length) (rest := rest) (w := w) hq hne
  generalize ((State.taken { s with mgmt := { s.mgmt with stats := stats } } .i payload.length r rest).setWatermark
    w).responseHeader e payload.length = H at responded ⊢
  have roomyBuilt := State.roomy_built room (encodeHeader H ++ payload)
  have built := State.built_eq { s with mgmt := { s.mgmt with stats := stats } } payload.length r rest w
      (encodeHeader H ++ payload)
  have queues := State.queues_built { s with mgmt := { s.mgmt with stats := stats } } payload.length r rest w
    (encodeHeader H ++ payload)
  have places := State.canPlace_built { s with mgmt := { s.mgmt with stats := stats } } payload.length r rest w
    (encodeHeader H ++ payload)
  have bytes := fun hn => State.frameBytes_built { s with mgmt := { s.mgmt with stats := stats } } (r := r) (rest := rest)
      (w := w)
    (bytes := encodeHeader H ++ payload) hpages hn (by rw [List.length_append, encodeHeader_length])
  change (State.respond _ e) = ((((State.built { s with mgmt := { s.mgmt with stats := stats } } payload.length r rest w
    (encodeHeader H ++ payload)).placeByDest e.requester r).cacheResponse _), (State.built { s with
      mgmt := { s.mgmt with stats := stats } } payload.length r rest w (encodeHeader H ++ payload)).watchedFor e.requester r)
    at responded
  generalize State.built { s with mgmt := { s.mgmt with stats := stats } } payload.length r rest w
    (encodeHeader H ++ payload) = z at *
  obtain ⟨placedRoom, events, session, params, steer, frame, ports⟩ := State.placeByDest_spec roomyBuilt e.requester r
  have cached := State.placedStays_cacheResponse placedRoom { requester := e.requester, id := e.id, frame := r }
  have ended := cached.trans (State.placedStays_endRequest cached.roomy)
  have handed : s.handOver e = ((z.placeByDest e.requester r).cacheResponse
      { requester := e.requester, id := e.id, frame := r }).endRequest.setExecutor
        (afterExecution e.reset (z.watchedFor e.requester r)) := by
    rw [State.handOver_eq, counted, responded]
  rw [handed]
  have all := ended.trans (State.placedStays_mgmt ended.roomy { ((z.placeByDest e.requester r).cacheResponse
      { requester := e.requester, id := e.id, frame := r }).endRequest.mgmt with
        executor := afterExecution e.reset (z.watchedFor e.requester r) })
  have route : z.routeByDest e.requester = s.routeByDest e.requester := by rw [built]; rfl
  refine ⟨all.session.trans (session.trans (by rw [built])), all.params.trans (params.trans (by rw [built])),
    all.steer.trans (steer.trans (by rw [built])), all.events.trans (events.trans (by rw [built])), fun y => ?_, fun hn => ?_,
    header, rfl⟩
  · refine (all.queues y).trans ?_
    rw [ports, route, places, queues]
    cases y <;> rfl
  · exact (all.bytes r).trans (frame.trans (bytes (hn.sublist (List.take_sublist _ _))))

/-- Settles O52: a response admitted at once, after one eviction, or never. -/
theorem responseHandoverCaches : Obligations.ResponseHandoverCaches := by
  intro s e q more n bytes stats hx ht hq hb hn hstats
  subst hn
  have counted := State.counting_eq (s := s) hstats
  refine ⟨fun hm hd => ?_, fun r hr hg => ?_, fun c older hc hl => ?_,
      fun c older hr hf hc h8 hall hrefs hback hfill hp hquota hroom => ?_,
    fun hr hc hl => ?_⟩
  · have payload : bytes = [e.id.extractLsb' 8 8, e.id.extractLsb' 0 8, 2, 0] := by
      rw [hb, hm, hd]
      rfl
    exact ⟨by rw [payload]; exact (rfl : pagesNeeded 4 = 1), payload⟩
  · obtain ⟨u, admitted, um, session, params, steer, events, queues, frame, header, numbering⟩ := State.handOver_placed hb hg
    have mgmt := State.handOver_mgmt hb admitted hr (by rw [um, counted]; exact hq)
    rw [um, counted] at mgmt
    refine ⟨s.handOver e, ?_, ?_, ?_, ?_, ?_, session, params, steer, events, queues, fun hne hd => ?_⟩
    · rw [exec_responseHandover_done hx ht, State.handOver_settle hr]
    · rw [mgmt]
    · rw [mgmt]
    · rw [mgmt]
      rfl
    · rw [mgmt]
    · rw [frame hd]
      unfold State.responseHeader
      rw [header q more hq hne, numbering]
      rfl
  · refine ⟨s.evict, ?_, ?_, ?_, ?_, fun y hroom => ?_, fun k hk => ?_, fun h1 h2 h3 h4 => ?_⟩
    · have mgmt := s.evict_mgmt
      have lacks : (s.counting e).lacksRoom (pagesNeeded bytes.length) := by rw [counted]; exact hl
      rw [exec_responseHandover_done hx ht, exec_responseHandover_done (by rw [mgmt]; exact hx) ht, State.handOver_eq,
        State.respond_evict hb (by rw [counted]; exact hc) lacks, State.counting_evict]
      rfl
    · rw [State.evict_mgmt, hc]
      rfl
    · unfold State.evict
      rw [hc]
      exact (State.still_dropRef (s.setCache older) c.frame).calm.numbering
    · unfold State.evict
      rw [hc]
      exact (State.still_dropRef (s.setCache older) c.frame).calm.params
    · unfold State.evict
      rw [hc]
      exact (State.placedStays_mgmt_dropRef hroom { s.mgmt with cache := older } c.frame).queues y
    · unfold State.evict
      rw [hc]
      obtain ⟨recs, pages, held, refs⟩ := State.dropRef_shared (s := s.setCache older) (r := c.frame)
        (show 2 ≤ (s.record c.frame).refs by omega)
      have before : ((s.setCache older).record c.frame).refs = k + 2 := hk
      exact ⟨recs, pages, held, by dsimp only; omega⟩
    · unfold State.evict
      rw [hc]
      exact State.dropRef_last (s := s.setCache older) (r := c.frame) h4 h1 h2 h3
  · have refused : (s.counting e).lacksRoom (pagesNeeded bytes.length) := by rw [counted]; exact .inl hf
    have emptied : s.evict.store.freeRecs = [c.frame] ∧
        s.evict.store.freePages = s.store.freePages ++ (s.record c.frame).pages ∧
        s.evict.store.held = s.store.held.on (· - (s.record c.frame).pages.length) (s.record c.frame).source := by
      unfold State.evict
      rw [hc]
      have last := State.dropRef_last (s := s.setCache older) (r := c.frame) hroom hrefs hback hfill
      rw [show (s.setCache older).store.freeRecs = [] from hf, List.nil_append] at last
      exact last
    obtain ⟨recs, pages, held⟩ := emptied
    have evicted := s.evict_mgmt
    rw [hc, List.drop_one, List.tail_cons] at evicted
    have again := State.respond_evict hb (by rw [counted]; exact hc) refused
    rw [State.counting_evict] at again
    have handed : s.handOver e = s.evict.handOver e := by
      rw [State.handOver_eq, State.handOver_eq, again]
    have quota : (s.evict.quota .i) = s.quota .i := by
      unfold State.evict
      rw [hc]
      exact congrArg Params.quotaI (State.still_dropRef (s.setCache older) c.frame).calm.params
    have lowered : s.evict.store.held.get .i ≤ s.store.held.get .i := by
      rw [held]
      cases (s.record c.frame).source <;> simp [Held.on, Held.get]
    have recounted := State.counting_eq (s := s.evict) (e := e) (stats := stats) (by rw [evicted]; exact hstats)
    have granted : (s.evict.counting e).askRoom .i bytes.length =
        .granted c.frame ((s.evict.counting e).taken .i bytes.length c.frame []).examine := by
      unfold State.askRoom
      rw [State.takeRoom_granted (s := s.evict.counting e) (by rw [recounted]; exact recs)
        (by
          rw [recounted]
          change _ ≤ s.evict.store.freePages.length
          rw [pages, List.length_append]
          exact Nat.le_add_right_of_le hp)
        (by
          rw [recounted]
          change s.evict.store.held.get .i + _ ≤ s.evict.quota .i
          omega)]
    have um : ((s.evict.counting e).taken .i bytes.length c.frame []).examine.mgmt = { s.evict.mgmt with stats := stats } := by
      rw [State.examine_mgmt, recounted]
      rfl
    have mgmt := State.handOver_mgmt hb (State.admitResponse_granted granted) hr (by rw [um, evicted]; exact hq)
    rw [um, evicted] at mgmt
    have none : older.find? (fun x => x.requester == e.requester) = none := by
      rw [List.find?_eq_none]
      intro x hx he
      have := List.all_eq_true.mp hall x hx
      rw [bne, he] at this
      cases this
    have cache : cacheRoom older e.requester = older := by
      unfold cacheRoom
      rw [none]
      exact if_pos h8
    refine ⟨s.handOver e, ?_, ?_, ?_, ?_, ?_⟩
    · rw [exec_responseHandover_done hx ht, State.handOver_settle hr]
    · rw [handed, mgmt]
    · rw [handed, mgmt]
    · rw [handed, mgmt]
      exact congrArg (· ++ _) cache
    · rw [handed, mgmt]
  · have lacks : (s.counting e).lacksRoom (pagesNeeded bytes.length) := by rw [counted]; exact hl
    have empty : (s.counting e).mgmt.cache = [] := by rw [counted]; exact hc
    have dropped : (s.counting e).respond e =
        (((s.counting e).raiseMgmt .responsesDropped).raiseEvent .responseDropped none
          (some (e.requester.setWidth 16)), none) := by
      unfold State.respond
      dsimp only
      rw [← hb, State.admitResponse, (s.counting e).askRoom_refused (src := .i) (len := bytes.length) lacks]
      dsimp only
      rw [empty]
      rfl
    have handed : s.handOver e = (((s.counting e).raiseMgmt .responsesDropped).raiseEvent .responseDropped none
        (some (e.requester.setWidth 16))).endRequest.setExecutor (afterExecution e.reset none) := by
      rw [State.handOver_eq, dropped]
    generalize hv : ((s.counting e).raiseMgmt .responsesDropped).raiseEvent .responseDropped none
      (some (e.requester.setWidth 16)) = v at handed
    have vm : v.mgmt = ((s.counting e).raiseMgmt .responsesDropped).mgmt := by
      rw [← hv, State.raiseEvent_mgmt]
    rw [counted] at vm
    have ended := State.endRequest_mgmt (s := v) (q := q) (more := more) (by rw [vm]; exact hq)
    have mgmt : (s.handOver e).mgmt = { v.mgmt with queue := more, executor := .idle } := by
      rw [handed, hr]
      exact congrArg (fun m : Mgmt => { m with executor := .idle }) ended
    rw [vm] at mgmt
    refine ⟨s.handOver e, ?_, ?_, ?_, ?_, ?_, fun hlen => ?_⟩
    · rw [exec_responseHandover_done hx ht, State.handOver_settle hr]
    · rw [mgmt]
    · rw [mgmt]
    · rw [mgmt]
      exact hc
    · rw [mgmt]
      have same : stats.responsesDropped = s.mgmt.stats.responsesDropped := by
        rw [hstats]
        split <;> rfl
      rw [← same]
      rfl
    · obtain ⟨l, stored⟩ := State.raiseEvent_stored (s := (s.counting e).raiseMgmt .responsesDropped)
        (by rw [counted]; exact hlen) .responseDropped none (some (e.requester.setWidth 16))
      have kept : EventsKept v v.endRequest := by
        unfold State.endRequest
        split
        · exact EventsKept.of_eq v rfl rfl
        · next q rest _ =>
          exact (EventsKept.of_eq v (t := { v with mgmt := { v.mgmt with queue := rest } }) rfl rfl).trans
            (State.eventsKept_dropRef _ q.frame)
      obtain ⟨m, grown⟩ := kept.grows
      rw [hv] at stored
      rw [handed]
      change ∃ x ∈ v.endRequest.events.records, _
      rw [grown, stored]
      exact ⟨_, List.mem_append_left _ (List.mem_append_right _ List.mem_cons_self), rfl, rfl⟩

end Sys2Proof.Machine

end

section
/-! What local ingress learns of other blocks' operations: that frames were released while it waits for room (R34). -/

namespace Sys2Proof.Machine

variable {s t u : State}

/-- Between `s` and `t` local ingress has at most been told of releases while it waits for room (R34). -/
def State.Told (s t : State) : Prop :=
  t.loc.ingress = s.loc.ingress ∨ ∃ h n m, s.loc.ingress = .waitRoom h n ∧ t.loc.ingress = .waitRoom h m

theorem State.Told.refl (s : State) : s.Told s := .inl rfl

theorem State.Told.trans (h : s.Told t) (g : t.Told u) : s.Told u := by
  rcases h with h | ⟨x, n, m, hs, ht⟩
  · unfold State.Told at g
    rwa [h] at g
  · rcases g with g | ⟨x', n', m', ht', hu⟩
    · exact .inr ⟨x, n, m, hs, g.trans ht⟩
    · cases ht.symm.trans ht'
      exact .inr ⟨x, n, m', hs, hu⟩

/-- What is said of local ingress while it does not wait for room stays so. -/
theorem State.Told.same (h : s.Told t) (hs : ∀ x n, s.loc.ingress ≠ .waitRoom x n) : t.loc.ingress = s.loc.ingress :=
  h.elim id fun ⟨x, n, _, hx, _⟩ => absurd hx (hs x n)

theorem State.Told.record? (h : s.Told t) : t.loc.ingress.record? = s.loc.ingress.record? := by
  rcases h with h | ⟨x, n, m, hs, ht⟩
  · rw [h]
  · rw [hs, ht]
    rfl

theorem State.Told.afterReset (h : s.Told t) : ingressAfterReset t.loc.ingress = ingressAfterReset s.loc.ingress := by
  rcases h with h | ⟨x, n, m, hs, ht⟩
  · rw [h]
  · rw [hs, ht]
    rfl

theorem State.Told.foldl {α : Type} (f : State → α → State) (hf : ∀ (v : State) a, v.Told (f v a)) (l : List α) :
    ∀ v : State, v.Told (l.foldl f v) := by
  induction l with
  | nil => exact fun v => .refl v
  | cons a l ih => exact fun v => (hf v a).trans (ih (f v a))

/-! ### The operations of the other blocks -/

theorem State.told_onTrunk (s : State) (p : TrunkPort) (f : Trunk → Trunk) : s.Told (s.onTrunk p f) := .inl (by simp)

theorem State.told_raiseTrunk (s : State) (p : TrunkPort) (k : TrunkStat) : s.Told (s.raiseTrunk p k) := .inl (by simp)

theorem State.told_append (s : State) (k : EventKind) (p : Option Port) (d : Option Half) : s.Told (s.append k p d) :=
  .inl (by rw [State.append_rest])

theorem State.told_announce (s : State) : s.Told s.announce := by
  unfold State.announce
  split
  · next h n hi =>
    split
    · exact .refl s
    · exact .inr ⟨h, n, n + 1, hi, rfl⟩
  · exact .refl s

theorem State.told_place (s : State) (q : Port) (c : TrafficClass) (r : Nat) : s.Told (s.place q c r) := by
  cases hc : s.canPlace q c with
  | true =>
    rw [State.place_taken hc, State.enqueue_frame]
    exact .inl rfl
  | false =>
    rw [State.place_skipped hc]
    exact .inl (by cases q <;> rfl)

theorem State.told_placeByDest (s : State) (d : Station) (r : Nat) : s.Told (s.placeByDest d r) := by
  unfold State.placeByDest
  split
  · exact s.told_place _ _ r
  · exact .refl s

theorem State.told_examineQuietly (s : State) : s.Told s.examineQuietly := by
  unfold State.examineQuietly
  split
  · split
    · exact State.told_append (s.setWatermark .low) .storeLow none none
    · exact .refl s
  · split
    · exact .inl rfl
    · exact .refl s

theorem State.told_releaseSkippedNotice (s : State) (r : Nat) : s.Told (s.releaseSkippedNotice r) := by
  unfold State.releaseSkippedNotice
  split
  · exact ((s.returnRoom r).told_examineQuietly).trans (State.told_announce _)
  · exact .refl s

theorem State.told_fill (s : State) (r i : Nat) (l : List Byte) : s.Told (s.fill r i l) := .inl (by rw [State.fill_loc])

theorem State.told_takeRoom {src : Source} {len r : Nat} (h : s.takeRoom src len = some (r, t)) : s.Told t := by
  obtain ⟨rest, -, rfl, -⟩ := State.takeRoom_cases h
  exact .inl rfl

theorem State.told_sendNotice (s : State) (e : EventRecord) : s.Told (s.sendNotice e) := by
  unfold State.sendNotice
  split
  · exact .refl s
  · next r v hv =>
    have filled := v.examineQuietly.told_fill r 0 (s.noticeBytes e)
    have told := ((State.told_takeRoom hv).trans v.told_examineQuietly).trans filled
    generalize v.examineQuietly.fill r 0 (s.noticeBytes e) = z at told
    exact (told.trans (z.told_placeByDest _ r)).trans (State.told_releaseSkippedNotice _ r)

theorem State.told_raiseEvent (s : State) (k : EventKind) (p : Option Port) (d : Option Half) : s.Told (s.raiseEvent k p d) := by
  unfold State.raiseEvent
  dsimp only
  split
  · exact (s.told_append k p d).trans (State.told_sendNotice _ _)
  · exact s.told_append k p d

theorem State.told_examine (s : State) : s.Told s.examine := by
  unfold State.examine
  split
  · split
    · exact State.told_raiseEvent (s.setWatermark .low) .storeLow none none
    · exact .refl s
  · split
    · exact .inl rfl
    · exact .refl s

theorem State.told_release (s : State) (r : Nat) : s.Told (s.release r) :=
  ((s.returnRoom r).told_examine).trans (State.told_announce _)

theorem State.told_abandon (s : State) (r : Option Nat) : s.Told (s.abandon r) := by
  cases r with
  | none => exact .refl s
  | some r => exact s.told_release r

theorem State.told_dropRef (s : State) (r : Nat) : s.Told (s.dropRef r) := by
  unfold State.dropRef
  split
  · exact .refl s
  · dsimp only
    split
    · exact State.told_release (s.setRecord r _) r
    · exact .inl rfl

theorem State.told_removeEntry (s : State) (q : Port) (e : Entry) : s.Told (s.removeEntry q e) := by
  have unwatched : s.Told ((s.setQueues q ((s.queues q).without e)).unwatch q e.frame) :=
    .inl (by rw [State.unwatch_eq]; cases q <;> rfl)
  exact unwatched.trans (State.told_dropRef _ e.frame)

theorem State.told_removeEntries (s : State) (q : Port) (f : Entry → Bool) : s.Told (s.removeEntries q f) :=
  State.Told.foldl _ (fun v e => v.told_removeEntry q e) _ s

theorem State.told_leaveFlight (s : State) (p : TrunkPort) : s.Told (s.leaveFlight p) := by
  unfold State.leaveFlight
  split
  · exact s.told_onTrunk p _
  · exact (s.told_onTrunk p _).trans (State.told_removeEntry _ _ _)

theorem State.told_startCopy (s : State) (p : TrunkPort) : s.Told (s.startCopy p) :=
  (s.told_raiseTrunk p _).trans (State.told_onTrunk _ p _)

theorem State.told_retransmit (s : State) (p : TrunkPort) : s.Told (s.retransmit p) := by
  unfold State.retransmit
  split
  · exact .refl s
  · split
    · exact s.told_startCopy p
    · exact (s.told_raiseTrunk p _).trans (State.told_leaveFlight _ p)

theorem State.told_resume (s : State) (p : TrunkPort) : s.Told (s.resume p) := by
  unfold State.resume
  split
  · exact s.told_retransmit p
  · exact .refl s

theorem State.told_resetTx (s : State) (p : TrunkPort) (w : Watched) : s.Told (s.resetTx p w) := by
  unfold State.resetTx
  split
  · exact s.told_onTrunk p _
  · split
    · split
      · exact s.told_onTrunk p _
      · exact .refl s
    · exact s.told_leaveFlight p

theorem State.told_resetSender (s : State) (p : TrunkPort) (w : Watched) : s.Told (s.resetSender p w) := by
  have emptied := (s.told_resetTx p w).trans (State.told_removeEntries _ (portOf p) (fun e => !isExempt w (portOf p) e))
  unfold State.resetSender
  dsimp only
  split
  · exact emptied.trans (State.told_resume _ p)
  · exact emptied

theorem State.told_resetRx (s : State) (p : TrunkPort) : s.Told (s.resetRx p) :=
  (s.told_onTrunk p _).trans (State.told_abandon _ _)

theorem State.told_resetBacklog (s : State) (q : Port) : s.Told (s.resetBacklog q) :=
  State.Told.trans (.inl (by simp)) (State.Told.foldl _ (fun v r => v.told_release r) _ (s.setBacklog q []))

theorem State.told_resetRequests (s : State) : s.Told s.resetRequests :=
  State.Told.foldl _ (fun v r => v.told_dropRef r) _ { s with mgmt := { s.mgmt with queue := [] } }

theorem State.told_resetEnums (s : State) : s.Told s.resetEnums :=
  State.Told.foldl _ (fun v r => v.told_dropRef r) _ { s with enums := [] }

theorem State.told_resetEgress (s : State) (w : Watched) : s.Told (s.resetEgress w) := by
  have cut : ∀ b : Bool, s.Told (if b then s.cutEgress else s) := by
    rintro (_ | _)
    · exact .refl s
    · exact .inl s.cutEgress_ingress
  exact (cut _).trans (State.told_removeEntries _ .l _)

/-- Local ingress at a traffic reset (R183). -/
theorem State.ingress_resetIngress (s : State) : s.resetIngress.loc.ingress = ingressAfterReset s.loc.ingress := by
  refine ((s.setIngress (ingressAfterReset s.loc.ingress)).told_abandon s.loc.ingress.record?).same ?_
  intro x n
  change ingressAfterReset s.loc.ingress ≠ .waitRoom x n
  cases s.loc.ingress with
  | waitRoom h n =>
    unfold ingressAfterReset
    dsimp only
    split <;> nofun
  | _ => exact nofun

end Sys2Proof.Machine

end

section
/-! A traffic reset (R165) block by block in a store with room. -/

namespace Sys2Proof.Machine

variable {s t u : State} {p : TrunkPort}

/-! ### Entries of a port -/

theorem QueueSet.mem_entries {x : QueueSet} {e : Entry} : e ∈ x.entries ↔ e.frame ∈ x.get e.cls := by
  obtain ⟨c, r⟩ := e
  have own : ∀ (d : TrafficClass) (l : List Nat),
      (⟨c, r⟩ : Entry) ∈ l.map (fun y => ({ cls := d, frame := y } : Entry)) ↔ d = c ∧ r ∈ l := by
    intro d l
    rw [List.mem_map]
    constructor
    · rintro ⟨y, hy, e⟩
      cases e
      exact ⟨rfl, hy⟩
    · rintro ⟨rfl, hr⟩
      exact ⟨r, hr, rfl⟩
  simp only [QueueSet.entries, List.mem_append, own]
  rcases class_cases c with rfl | rfl | rfl | rfl <;> simp [QueueSet.get]

theorem QueueSet.mem_entries_keep {x : QueueSet} {f : Entry → Bool} {e : Entry} :
    e ∈ (x.keep f).entries ↔ e ∈ x.entries ∧ f e = true := by
  rw [QueueSet.mem_entries, QueueSet.mem_entries, QueueSet.keep_get, List.mem_filter]

theorem QueueSet.mem_entries_without {x : QueueSet} {e d : Entry} (h : d ∈ (x.without e).entries) : d ∈ x.entries := by
  rw [QueueSet.mem_entries, QueueSet.without_get] at h
  rw [QueueSet.mem_entries]
  split at h
  · next hc =>
    rw [hc]
    exact List.mem_of_mem_erase h
  · exact h

theorem filter_erase_of_neg {l : List Nat} {g : Nat → Bool} {a : Nat} (h : g a = false) :
    (l.erase a).filter g = l.filter g := by
  induction l with
  | nil => rfl
  | cons b l ih =>
    by_cases hb : b = a
    · subst hb
      rw [List.erase_cons_head, List.filter_cons_of_neg (by rw [h]; exact Bool.false_ne_true)]
    · rw [List.erase_cons_tail (by simp [hb]), List.filter_cons, List.filter_cons, ih]

/-- An entry that is not kept, removed before the others that are not, makes no difference. -/
theorem QueueSet.keep_without {x : QueueSet} {f : Entry → Bool} {e : Entry} (h : f e = false) :
    (x.without e).keep f = x.keep f := by
  refine QueueSet.ext_get fun c => ?_
  rw [QueueSet.keep_get, QueueSet.keep_get, QueueSet.without_get]
  split
  · next hc =>
    subst hc
    exact filter_erase_of_neg h
  · rfl

/-! ### What releases leave alone -/

/-- What records given back, and references dropped, in a store with room leave as it was. -/
structure State.Undisturbed (s t : State) : Prop where
  roomy : t.roomy
  events : t.events = s.events
  mem : t.store.mem = s.store.mem
  queues : ∀ y, t.queues y = s.queues y
  stats : ∀ p, (t.trunk p).stats = (s.trunk p).stats
  locStats : t.loc.stats = s.loc.stats
  pages : ∀ r, (t.record r).pages = (s.record r).pages
  size : ∀ r, (t.record r).size = (s.record r).size
  arrival : ∀ r, (t.record r).arrival = (s.record r).arrival

theorem State.Undisturbed.trans (h : s.Undisturbed t) (g : t.Undisturbed u) : s.Undisturbed u where
  roomy := g.roomy
  events := g.events.trans h.events
  mem := g.mem.trans h.mem
  queues y := (g.queues y).trans (h.queues y)
  stats y := (g.stats y).trans (h.stats y)
  locStats := g.locStats.trans h.locStats
  pages r := (g.pages r).trans (h.pages r)
  size r := (g.size r).trans (h.size r)
  arrival r := (g.arrival r).trans (h.arrival r)

/-- An operation that leaves the store, the events, the queues and the statistics alone. -/
theorem State.Undisturbed.of_store (h : s.roomy) (hs : t.store = s.store) (he : t.events = s.events)
    (hq : ∀ y, t.queues y = s.queues y) (ht : ∀ p, (t.trunk p).stats = (s.trunk p).stats) (hl : t.loc.stats = s.loc.stats) :
    s.Undisturbed t := by
  have record : ∀ r, t.record r = s.record r := fun r => by unfold State.record; rw [hs]
  refine ⟨?_, he, by rw [hs], hq, ht, hl, fun r => by rw [record], fun r => by rw [record], fun r => by rw [record]⟩
  unfold State.roomy
  rw [hs]
  exact h

theorem State.Undisturbed.refl (h : s.roomy) : s.Undisturbed s := .of_store h rfl rfl (fun _ => rfl) (fun _ => rfl) rfl

theorem State.Undisturbed.foldl {α : Type} (f : State → α → State) (hf : ∀ (v : State) a, v.roomy → v.Undisturbed (f v a))
    (l : List α) : ∀ v : State, v.roomy → v.Undisturbed (l.foldl f v) := by
  induction l with
  | nil => exact fun v h => .refl h
  | cons a l ih => exact fun v h => (hf v a h).trans (ih (f v a) (hf v a h).roomy)

theorem State.Undisturbed.frameBytes (h : s.Undisturbed t) (r : Nat) : t.frameBytes r = s.frameBytes r :=
  State.frameBytes_congr h.mem (h.pages r) (h.size r)

/-- One port's queues written alike in both states. -/
theorem State.Undisturbed.setQueues (h : s.Undisturbed t) (q : Port) (x : QueueSet) :
    (s.setQueues q x).Undisturbed (t.setQueues q x) := by
  have record : ∀ (v : State) r, (v.setQueues q x).record r = v.record r := fun v r => by
    unfold State.record
    rw [State.setQueues_store]
  have stats : ∀ (v : State) y, ((v.setQueues q x).trunk y).stats = (v.trunk y).stats := fun v y => by cases q <;> cases y <;> rfl
  have loc : ∀ v : State, (v.setQueues q x).loc.stats = v.loc.stats := fun v => by cases q <;> rfl
  refine ⟨by simpa [State.roomy] using h.roomy, by simpa using h.events, by simpa using h.mem, fun y => ?_, fun y => ?_, ?_,
    fun r => ?_, fun r => ?_, fun r => ?_⟩
  · rw [State.queues_setQueues, State.queues_setQueues]
    split
    · rfl
    · exact h.queues y
  · rw [stats, stats, h.stats]
  · rw [loc, loc, h.locStats]
  · rw [record, record, h.pages]
  · rw [record, record, h.size]
  · rw [record, record, h.arrival]

theorem State.undisturbed_release (h : s.roomy) (r : Nat) : s.Undisturbed (s.release r) := by
  have k := State.restored_release h r
  obtain ⟨e, -⟩ := (State.release_gaveBack h r).1
  have record : ∀ y, (s.release r).record y = s.record y := fun y => by rw [e]; rfl
  exact ⟨k.roomy, k.events, k.mem, k.queues, fun p => congrArg Trunk.stats (k.trunk p), k.locStats,
    fun y => by rw [record], fun y => by rw [record], fun y => by rw [record]⟩

theorem State.undisturbed_setRecord (h : s.roomy) (r n : Nat) (x : RecordState) :
    s.Undisturbed (s.setRecord r { s.record r with refs := n, state := x }) := by
  have record : ∀ y, (s.setRecord r { s.record r with refs := n, state := x }).record y =
      if y = r then { s.record r with refs := n, state := x } else s.record y := fun y => State.record_setRecord ..
  refine ⟨h, rfl, rfl, fun y => by cases y <;> rfl, fun y => by cases y <;> rfl, rfl, fun y => ?_, fun y => ?_, fun y => ?_⟩
  all_goals
    rw [record]
    split
    · next e => rw [e]
    · rfl

theorem State.undisturbed_dropRef (h : s.roomy) (r : Nat) : s.Undisturbed (s.dropRef r) := by
  unfold State.dropRef
  split
  · exact .refl h
  · next n _ =>
    have set := State.undisturbed_setRecord h r n (if s.isQueued r then .queued else .waiting)
    dsimp only
    split
    · exact set.trans (State.undisturbed_release set.roomy r)
    · exact set

theorem State.undisturbed_abandon (h : s.roomy) (r : Option Nat) : s.Undisturbed (s.abandon r) := by
  cases r with
  | none => exact .refl h
  | some r => exact State.undisturbed_release h r

theorem State.undisturbed_onTx (h : s.roomy) (p : TrunkPort) (f : Transmitter → Transmitter) : s.Undisturbed (s.onTx p f) :=
  .of_store h (by simp) (by simp) (fun y => by cases p <;> cases y <;> rfl) (fun y => by cases p <;> cases y <;> rfl) (by simp)

theorem State.undisturbed_removeEntry (h : s.roomy) (q : Port) (e : Entry) :
    (s.setQueues q ((s.queues q).without e)).Undisturbed (s.removeEntry q e) := by
  have room : (s.setQueues q ((s.queues q).without e)).roomy := by simpa [State.roomy] using h
  have unwatched : (s.setQueues q ((s.queues q).without e)).Undisturbed
      ((s.setQueues q ((s.queues q).without e)).unwatch q e.frame) := by
    rw [State.unwatch_eq]
    exact .of_store room rfl rfl (fun y => by cases y <;> rfl) (fun y => by cases y <;> rfl) rfl
  exact unwatched.trans (State.undisturbed_dropRef unwatched.roomy e.frame)

theorem State.undisturbed_foldl_removeEntry (q : Port) (l : List Entry) : ∀ s : State, s.roomy →
    (s.setQueues q (l.foldl QueueSet.without (s.queues q))).Undisturbed (l.foldl (fun t e => t.removeEntry q e) s) := by
  induction l with
  | nil =>
    intro s h
    rw [List.foldl_nil, List.foldl_nil, State.setQueues_self]
    exact .refl h
  | cons e l ih =>
    intro s h
    have k := State.undisturbed_removeEntry h q e
    have own : (s.removeEntry q e).queues q = (s.queues q).without e := by
      rw [k.queues, State.queues_setQueues, if_pos rfl]
    have first := k.setQueues q (l.foldl QueueSet.without ((s.queues q).without e))
    rw [State.setQueues_setQueues] at first
    have rest := ih _ k.roomy
    rw [own] at rest
    exact first.trans rest

/-- The entries of a port that a predicate selects leave: its other entries stay. -/
theorem State.undisturbed_removeEntries (h : s.roomy) (q : Port) (f : Entry → Bool) :
    (s.setQueues q ((s.queues q).keep (fun e => !f e))).Undisturbed (s.removeEntries q f) := by
  rw [← QueueSet.foldl_without]
  exact State.undisturbed_foldl_removeEntry q _ s h

/-! ### The blocks but the senders -/

theorem State.undisturbed_resetRx (h : s.roomy) (p : TrunkPort) : s.Undisturbed (s.resetRx p) := by
  have idle : s.Undisturbed (s.onRx p (fun x => { x with reception := .waitSof })) :=
    .of_store h (by simp) (by simp) (fun y => by cases p <;> cases y <;> rfl) (fun y => by cases p <;> cases y <;> rfl) (by simp)
  exact idle.trans (State.undisturbed_abandon idle.roomy _)

theorem State.undisturbed_resetIngress (h : s.roomy) : s.Undisturbed s.resetIngress := by
  have ended : s.Undisturbed (s.setIngress (ingressAfterReset s.loc.ingress)) :=
    .of_store h rfl rfl (fun y => by cases y <;> rfl) (fun y => by cases y <;> rfl) rfl
  exact ended.trans (State.undisturbed_abandon ended.roomy _)

theorem State.undisturbed_resetBacklog (h : s.roomy) (q : Port) : s.Undisturbed (s.resetBacklog q) := by
  have emptied : s.Undisturbed (s.setBacklog q []) :=
    .of_store h (by simp) (by simp) (fun y => by cases q <;> cases y <;> rfl) (fun y => by cases q <;> cases y <;> rfl) (by simp)
  exact emptied.trans (State.Undisturbed.foldl _ (fun v r hv => State.undisturbed_release hv r) _ _ emptied.roomy)

theorem State.undisturbed_resetRequests (h : s.roomy) : s.Undisturbed s.resetRequests := by
  have emptied : s.Undisturbed { s with mgmt := { s.mgmt with queue := [] } } :=
    .of_store h rfl rfl (fun y => by cases y <;> rfl) (fun y => by cases y <;> rfl) rfl
  exact emptied.trans (State.Undisturbed.foldl _ (fun v r hv => State.undisturbed_dropRef hv r) _ _ emptied.roomy)

theorem State.undisturbed_resetEnums (h : s.roomy) : s.Undisturbed s.resetEnums := by
  have emptied : s.Undisturbed { s with enums := [] } :=
    .of_store h rfl rfl (fun y => by cases y <;> rfl) (fun y => by cases y <;> rfl) rfl
  exact emptied.trans (State.Undisturbed.foldl _ (fun v r hv => State.undisturbed_dropRef hv r) _ _ emptied.roomy)

theorem State.undisturbed_resetEgress (h : s.roomy) (w : Watched) :
    (s.setQueues .l (s.loc.queues.keep (isExempt w .l))).Undisturbed (s.resetEgress w) := by
  have cut : ∀ b : Bool, s.Undisturbed (if b then s.cutEgress else s) := by
    rintro (_ | _)
    · exact .refl h
    · refine .of_store h (by simp) (by simp) (by simp) (fun y => ?_) ?_
      · rw [if_pos rfl, State.cutEgress_eq]
        cases y <;> rfl
      · rw [if_pos rfl, State.cutEgress_eq]
  have removed := State.undisturbed_removeEntries
      (cut (match s.loc.egress with | .transfer e _ => !isExempt w .l e | _ => false)).roomy
    .l (fun e => !isExempt w .l e)
  rw [(cut _).queues .l] at removed
  have kept := (cut (match s.loc.egress with | .transfer e _ => !isExempt w .l e | _ => false)).setQueues .l
    (s.loc.queues.keep (isExempt w .l))
  refine kept.trans ?_
  have same : (fun e => !!isExempt w .l e) = isExempt w .l := by funext e; exact Bool.not_not _
  rw [same] at removed
  exact removed

end Sys2Proof.Machine

end

section
/-! A traffic reset (R89, R165): the sending sides, and RESET_LIMIT_EXPIRY. -/

namespace Sys2Proof.Machine

variable {s t u : State} {p : TrunkPort} {w : Watched}

/-! ### The transmitter at a traffic reset -/

/-- The transmitter after a traffic reset, before a response that was held is sent again (R89). -/
def Transmitter.reset (x : Transmitter) (p : TrunkPort) (w : Watched) : Transmitter :=
  match x.inFlight with
  | none => x.cleared
  | some e => if isExempt w (portOf p) e then (if x.state = .held then x.suspended else x) else x.vacated

theorem State.tx_onTx (s : State) (p : TrunkPort) (f : Transmitter → Transmitter) : (s.onTx p f).tx p = f (s.tx p) := by
  cases p <;> rfl

theorem State.resetTx_tx (s : State) (p : TrunkPort) (w : Watched) : (s.resetTx p w).tx p = (s.tx p).reset p w := by
  unfold State.resetTx Transmitter.reset
  cases hf : (s.tx p).inFlight with
  | none => exact s.tx_onTx p _
  | some e =>
    dsimp only
    split
    · split
      · exact s.tx_onTx p _
      · rfl
    · exact State.leaveFlight_tx hf

/-- A port's sending side emptied but for the exempt response. -/
def State.emptied (s : State) (p : TrunkPort) (w : Watched) : State :=
  (s.resetTx p w).removeEntries (portOf p) (fun e => !isExempt w (portOf p) e)

theorem State.emptied_tx (s : State) (p : TrunkPort) (w : Watched) : (s.emptied p w).tx p = (s.tx p).reset p w :=
  ((State.still_removeEntries (s.resetTx p w) _ _).calm.tx p).trans (s.resetTx_tx p w)

theorem State.resetSender_eq (s : State) (p : TrunkPort) (w : Watched) : s.resetSender p w =
    if (s.tx p).state = .held && ((s.tx p).reset p w).inFlight.isSome && s.usable p then (s.emptied p w).resume p
    else s.emptied p w := by
  have work : Work [.tx p] s (s.emptied p w) := (Work.resetTx s p w).trans (State.still_removeEntries _ _ _).work
  have usable : (s.emptied p w).usable p = s.usable p := by
    have params : (s.emptied p w).params = s.params := work.same .params (by simp)
    have link : ((s.emptied p w).trunk p).link = (s.trunk p).link := work.same (.link p) (by simp)
    unfold State.usable
    rw [link, State.enabled_of_params s params]
  rw [← s.emptied_tx p w, ← usable]
  rfl

/-- A sending side that was not HELD, or whose port is not usable, sends nothing at once. -/
theorem State.resetSender_tx (h : (s.tx p).state ≠ .held ∨ s.usable p = false ∨ ((s.tx p).reset p w).inFlight = none) :
    (s.resetSender p w).tx p = (s.tx p).reset p w := by
  rw [State.resetSender_eq, if_neg, State.emptied_tx]
  rcases h with h | h | h <;> simp [h]

/-! ### The queues and statistics at a traffic reset -/

theorem portOf_injective : Function.Injective portOf := fun p q h => by cases p <;> cases q <;> trivial

theorem State.undisturbed_resetTx (h : s.roomy) (p : TrunkPort) (w : Watched) : ∃ x : QueueSet,
    x.keep (isExempt w (portOf p)) = (s.trunk p).queues.keep (isExempt w (portOf p)) ∧
      (s.setQueues (portOf p) x).Undisturbed (s.resetTx p w) := by
  have own : s.setQueues (portOf p) (s.trunk p).queues = s := by
    rw [← State.trunk_queues, State.setQueues_self]
  unfold State.resetTx
  split
  · exact ⟨_, rfl, by rw [own]; exact State.undisturbed_onTx h p _⟩
  · next e hf =>
    split
    · split
      · exact ⟨_, rfl, by rw [own]; exact State.undisturbed_onTx h p _⟩
      · exact ⟨_, rfl, by rw [own]; exact .refl h⟩
    · next he =>
      refine ⟨(s.trunk p).queues.without e, QueueSet.keep_without (by simpa using he), ?_⟩
      have changed := State.undisturbed_onTx h p (fun t => t.advanced.cleared)
      have removed := State.undisturbed_removeEntry changed.roomy (portOf p) e
      rw [changed.queues, State.trunk_queues] at removed
      unfold State.leaveFlight
      rw [hf]
      exact (changed.setQueues _ _).trans removed

theorem State.undisturbed_emptied (h : s.roomy) (p : TrunkPort) (w : Watched) :
    (s.setQueues (portOf p) ((s.trunk p).queues.keep (isExempt w (portOf p)))).Undisturbed (s.emptied p w) := by
  obtain ⟨x, keep, first⟩ := State.undisturbed_resetTx h p w
  have removed := State.undisturbed_removeEntries first.roomy (portOf p) (fun e => !isExempt w (portOf p) e)
  have same : (fun e => !!isExempt w (portOf p) e) = isExempt w (portOf p) := by funext e; exact Bool.not_not _
  rw [same, first.queues, State.queues_setQueues, if_pos rfl, keep] at removed
  have kept := first.setQueues (portOf p) ((s.trunk p).queues.keep (isExempt w (portOf p)))
  rw [State.setQueues_setQueues] at kept
  exact kept.trans removed

/-- What the work of one port's sending side leaves as it was: the events, the other port and the local port, and of its own
queues every entry but those that leave. -/
structure State.SenderWork (p : TrunkPort) (s t : State) : Prop where
  roomy : t.roomy
  events : t.events = s.events
  locQueues : t.loc.queues = s.loc.queues
  locStats : t.loc.stats = s.loc.stats
  other : ∀ q, q ≠ p → (t.trunk q).queues = (s.trunk q).queues ∧ (t.trunk q).stats = (s.trunk q).stats
  arrival : ∀ r, (t.record r).arrival = (s.record r).arrival
  left : ∀ x ∈ (t.trunk p).queues.entries, x ∈ (s.trunk p).queues.entries

theorem State.SenderWork.trans (h : s.SenderWork p t) (g : t.SenderWork p u) : s.SenderWork p u where
  roomy := g.roomy
  events := g.events.trans h.events
  locQueues := g.locQueues.trans h.locQueues
  locStats := g.locStats.trans h.locStats
  other q hq := ⟨(g.other q hq).1.trans (h.other q hq).1, (g.other q hq).2.trans (h.other q hq).2⟩
  arrival r := (g.arrival r).trans (h.arrival r)
  left x hx := h.left x (g.left x hx)

/-- Entries of its own queues gone, the rest undisturbed. -/
theorem State.Undisturbed.senderWork {x : QueueSet} (h : (s.setQueues (portOf p) x).Undisturbed t)
    (hx : ∀ e ∈ x.entries, e ∈ (s.trunk p).queues.entries) : s.SenderWork p t where
  roomy := h.roomy
  events := h.events.trans (by simp)
  locQueues := by
    have q := h.queues .l
    rw [State.queues_setQueues, if_neg (by cases p <;> exact nofun)] at q
    exact q
  locStats := h.locStats.trans (by cases p <;> rfl)
  other q hq := by
    have ports : portOf q ≠ portOf p := fun e => hq (portOf_injective e)
    have queue := h.queues (portOf q)
    rw [State.queues_setQueues, if_neg ports, State.trunk_queues, State.trunk_queues] at queue
    exact ⟨queue, (h.stats q).trans (by cases p <;> cases q <;> rfl)⟩
  arrival r := (h.arrival r).trans (by unfold State.record; rw [State.setQueues_store])
  left e he := by
    have queue := h.queues (portOf p)
    rw [State.queues_setQueues, if_pos rfl, State.trunk_queues] at queue
    rw [queue] at he
    exact hx e he

theorem State.senderWork_onTrunk (h : s.roomy) (f : Trunk → Trunk) (hf : (f (s.trunk p)).queues = (s.trunk p).queues) :
    s.SenderWork p (s.onTrunk p f) where
  roomy := by simpa [State.roomy] using h
  events := by simp
  locQueues := by simp
  locStats := by simp
  other q hq := by
    unfold State.onTrunk
    rw [State.trunk_setTrunk, if_neg hq]
    exact ⟨rfl, rfl⟩
  arrival r := by unfold State.record; rw [State.onTrunk_store]
  left x hx := by
    have queues : ((s.onTrunk p f).trunk p).queues = (f (s.trunk p)).queues := by cases p <;> rfl
    rw [queues, hf] at hx
    exact hx

theorem State.senderWork_leaveFlight (h : s.roomy) (p : TrunkPort) : s.SenderWork p (s.leaveFlight p) := by
  unfold State.leaveFlight
  split
  · exact State.senderWork_onTrunk h _ rfl
  · next e _ =>
    have advanced : s.SenderWork p (s.onTx p (fun t => t.advanced.cleared)) := State.senderWork_onTrunk h _ rfl
    refine advanced.trans ((State.undisturbed_removeEntry advanced.roomy (portOf p) e).senderWork fun d hd => ?_)
    rw [State.trunk_queues] at hd
    exact QueueSet.mem_entries_without hd

theorem State.senderWork_resume (h : s.roomy) (p : TrunkPort) : s.SenderWork p (s.resume p) := by
  have same : s.SenderWork p s := by
    have k := State.senderWork_onTrunk (p := p) h id rfl
    rwa [show s.onTrunk p id = s by cases p <;> rfl] at k
  have counted : ∀ k, s.SenderWork p (s.raiseTrunk p k) := fun k => State.senderWork_onTrunk h _ rfl
  have copied : ∀ {v : State}, v.roomy → ∀ f, v.SenderWork p (v.onTx p f) := fun hv f => State.senderWork_onTrunk hv _ rfl
  unfold State.resume
  split
  · unfold State.retransmit
    split
    · exact same
    · split
      · exact (counted _).trans (copied (counted _).roomy _)
      · exact (counted _).trans (State.senderWork_leaveFlight (counted _).roomy p)
  · exact same

theorem State.senderWork_resetSender (h : s.roomy) (p : TrunkPort) (w : Watched) :
    s.SenderWork p (s.resetSender p w) ∧
      ((s.tx p).state ≠ .held →
        ((s.resetSender p w).trunk p).queues = (s.trunk p).queues.keep (isExempt w (portOf p)) ∧
          ((s.resetSender p w).trunk p).stats = (s.trunk p).stats) ∧
      ∀ x ∈ ((s.resetSender p w).trunk p).queues.entries, w = some (portOf p, x.frame) := by
  have emptied := State.undisturbed_emptied h p w
  have work : s.SenderWork p (s.emptied p w) := emptied.senderWork fun e he => (QueueSet.mem_entries_keep.mp he).1
  have queues : ((s.emptied p w).trunk p).queues = (s.trunk p).queues.keep (isExempt w (portOf p)) := by
    rw [← State.trunk_queues, emptied.queues, State.queues_setQueues, if_pos rfl]
  have stats : ((s.emptied p w).trunk p).stats = (s.trunk p).stats := (emptied.stats p).trans (by cases p <;> rfl)
  have exempt : ∀ x ∈ ((s.emptied p w).trunk p).queues.entries, w = some (portOf p, x.frame) := fun x hx => by
    rw [queues] at hx
    exact of_decide_eq_true (QueueSet.mem_entries_keep.mp hx).2
  rw [State.resetSender_eq]
  split
  · next hr =>
    have held : (s.tx p).state = .held := by
      simp only [Bool.and_eq_true, decide_eq_true_eq] at hr
      exact hr.1.1
    have again := State.senderWork_resume emptied.roomy p
    exact ⟨work.trans again, fun hn => absurd held hn, fun x hx => exempt x (again.left x hx)⟩
  · exact ⟨work, fun _ => ⟨queues, stats⟩, exempt⟩

end Sys2Proof.Machine

end

section
/-! RESET_LIMIT_EXPIRY with a traffic reset pending (R164, R165). -/

namespace Sys2Proof.Machine

variable {s t u : State} {p : TrunkPort} {w : Watched}

theorem Work.mgmt {F : List Part} (k : Work F s t) (hF : .mgmt ∉ F) (h : s.resetPending = false) : t.mgmt = s.mgmt :=
  (k.same .mgmt hF).1 h

/-! ### The stages of a traffic reset -/

/-- The receivers and local ingress reset. -/
def State.receiversReset (s : State) : State := ((s.endPending.resetRx .a).resetRx .b).resetIngress

/-- The backlogs emptied. -/
def State.backlogsReset (s : State) : State := ((s.resetBacklog .a).resetBacklog .b).resetBacklog .l

/-- M and N emptied. -/
def State.holdersReset (s : State) : State := s.resetRequests.resetEnums

/-- The meters refilled, and the arbiter as after power-on. -/
def State.refilled (s : State) : State :=
  { s with
    meters := Sparse.mapValues Meter.blank Meter.refilled s.meters
    steer := { s.steer with lastServed := .l } }

/-- The node before the sending sides are reset. -/
def State.beforeSenders (s : State) (w : Watched) : State :=
  ((s.receiversReset.backlogsReset.holdersReset).resetEgress w).refilled

theorem State.trafficReset_eq (s : State) (w : Watched) : s.trafficReset w =
    (((s.beforeSenders w).resetSender .a w).resetSender .b w).raiseEvent .resetDone none (some (causeCode .traffic)) := by
  unfold State.trafficReset State.beforeSenders State.refilled State.holdersReset State.backlogsReset State.receiversReset
  rfl

section stages

variable (s) (w)

theorem Work.receiversReset : Work [.rx .a, .rx .b] s.endPending s.receiversReset := by
  unfold State.receiversReset
  generalize s.endPending = v
  exact (((Work.resetRx v .a).mono (by simp)).trans ((Work.resetRx _ .b).mono (by simp))).trans (State.still_resetIngress _).work

theorem Work.backlogsReset : Work [.steer] s s.backlogsReset :=
  ((Work.resetBacklog s .a).trans (.resetBacklog _ .b)).trans (.resetBacklog _ .l)

theorem Work.holdersReset : Work [.requests, .mgmt, .enums] s s.holdersReset :=
  ((Work.resetRequests s).mono (by simp)).trans ((Work.resetEnums _).mono (by simp))

theorem Work.refilled : Work [.meters, .steer] s s.refilled := .refill s

/-- What the sending sides, and the event at the end, may change of the parts. -/
theorem Work.senders : Work [.tx .a, .tx .b] (s.beforeSenders w) (s.trafficReset w) := by
  rw [State.trafficReset_eq]
  generalize s.beforeSenders w = v
  exact (((Work.resetSender v .a w).mono (by simp)).trans ((Work.resetSender _ .b w).mono (by simp))).trans
    (State.still_raiseEvent _ _ _ _).work

theorem State.resetBacklog_steer (q : Port) : (s.resetBacklog q).steer = (s.setBacklog q []).steer :=
  (Still.foldl _ (fun u r => u.still_release r) _ (s.setBacklog q [])).calm.steer

theorem State.backlogsReset_steer :
    s.backlogsReset.steer = { s.steer with backlogA := [], backlogB := [], backlogL := [] } := by
  have a := s.resetBacklog_steer .a
  have b := (s.resetBacklog .a).resetBacklog_steer .b
  have l := ((s.resetBacklog .a).resetBacklog .b).resetBacklog_steer .l
  unfold State.backlogsReset
  generalize s.resetBacklog .a = x at *
  generalize x.resetBacklog .b = y at *
  rw [l]
  unfold State.setBacklog at a b ⊢
  dsimp only at a b ⊢
  rw [b, a]

theorem State.resetRequests_mgmt : s.resetRequests.mgmt = { s.mgmt with queue := [] } := by
  have drops : ∀ (l : List Nat) (v : State), (l.foldl State.dropRef v).mgmt = v.mgmt := by
    intro l
    induction l with
    | nil => exact fun _ => rfl
    | cons r l ih => exact fun v => (ih (v.dropRef r)).trans (State.dropRef_mgmt v r)
  exact drops _ { s with mgmt := { s.mgmt with queue := [] } }

theorem State.resetEnums_enums : s.resetEnums.enums = [] :=
  (Still.foldl _ (fun u r => u.still_dropRef r) _ { s with enums := [] }).calm.enums

end stages

/-! ### Each block after a traffic reset -/

section blocks

variable (s) (w)

/-- The stages up to the sending sides, in turn. -/
theorem State.beforeSenders_stages : ∃ v1 v2 v3 v4 : State,
    Work [.rx .a, .rx .b] s.endPending v1 ∧ Work [.steer] v1 v2 ∧ Work [.enums] v2.resetRequests v3 ∧ Work [.egress] v3 v4 ∧
      v2.steer = { v1.steer with backlogA := [], backlogB := [], backlogL := [] } ∧ v3.enums = [] ∧
      s.beforeSenders w = v4.refilled :=
  ⟨s.receiversReset, s.receiversReset.backlogsReset, s.receiversReset.backlogsReset.holdersReset, _, Work.receiversReset s,
    Work.backlogsReset _, Work.resetEnums _, Work.resetEgress _ w, State.backlogsReset_steer _, State.resetEnums_enums _, rfl⟩

theorem State.beforeSenders_mgmt : (s.beforeSenders w).mgmt = { s.mgmt with executor := .idle, queue := [] } := by
  obtain ⟨v1, v2, v3, v4, w1, w2, w3, w4, -, -, eq⟩ := s.beforeSenders_stages w
  have idle : ∀ {v : State} {q}, v.mgmt = { s.mgmt with executor := .idle, queue := q } → v.resetPending = false := fun hv => by
    unfold State.resetPending
    rw [hv]
  have m1 : v1.mgmt = { s.mgmt with executor := .idle } := w1.mgmt (by simp) rfl
  have m2 : v2.mgmt = { s.mgmt with executor := .idle } := (w2.mgmt (by simp) (idle m1)).trans m1
  have m : v2.resetRequests.mgmt = { s.mgmt with executor := .idle, queue := [] } := by rw [State.resetRequests_mgmt, m2]
  have m3 := (w3.mgmt (by simp) (idle m)).trans m
  rw [eq]
  exact (w4.mgmt (by simp) (idle m3)).trans m3

theorem State.trafficReset_mgmt : (s.trafficReset w).mgmt = { s.mgmt with executor := .idle, queue := [] } := by
  have m := s.beforeSenders_mgmt w
  refine ((Work.senders s w).mgmt (by simp) ?_).trans m
  unfold State.resetPending
  rw [m]

theorem State.trafficReset_steer : (s.trafficReset w).steer =
    { s.steer with backlogA := [], backlogB := [], backlogL := [], lastServed := .l } := by
  obtain ⟨v1, v2, v3, v4, w1, -, w3, w4, s2, -, eq⟩ := s.beforeSenders_stages w
  have s1 : v1.steer = s.steer := w1.same .steer (by simp)
  have s3 : v4.steer = v2.steer := ((w4.same .steer (by simp)).trans (w3.same .steer (by simp))).trans
    ((Work.resetRequests v2).same .steer (by simp))
  have last : (s.trafficReset w).steer = (s.beforeSenders w).steer := (Work.senders s w).same .steer (by simp)
  rw [last, eq]
  change { v4.steer with lastServed := .l } = _
  rw [s3, s2, s1]

theorem State.trafficReset_enums : (s.trafficReset w).enums = [] := by
  obtain ⟨v1, v2, v3, v4, -, -, -, w4, -, enums, eq⟩ := s.beforeSenders_stages w
  have last : (s.trafficReset w).enums = (s.beforeSenders w).enums := (Work.senders s w).same .enums (by simp)
  rw [last, eq]
  exact (w4.same .enums (by simp)).trans enums

/-- The parts no block before the sending sides changes. -/
theorem State.beforeSenders_part {x : Part}
    (hx : x ∉ [.rx .a, .rx .b, .steer, .requests, .mgmt, .enums, .egress, .meters, .current, .active])
    (he : x.same s s.endPending) : x.same s (s.beforeSenders w) := by
  obtain ⟨v1, v2, v3, v4, w1, w2, w3, w4, -, -, eq⟩ := s.beforeSenders_stages w
  have all : Work [.rx .a, .rx .b, .steer, .requests, .mgmt, .enums, .egress, .meters] s.endPending v4.refilled :=
    (((((w1.mono (by simp)).trans (w2.mono (by simp))).trans ((Work.resetRequests v2).mono (by simp))).trans
      (w3.mono (by simp))).trans (w4.mono (by simp))).trans ((Work.refilled v4).mono (by simp))
  rw [eq]
  exact Part.same_trans he (all.same x fun h => hx (by simp at h ⊢; tauto))

theorem State.trafficReset_meters (h : Sparse.wf Meter.blank s.meters = true) (i : Nat) :
    (s.trafficReset w).meter i = { s.meter i with level := (s.meter i).burst } := by
  obtain ⟨v1, v2, v3, v4, w1, w2, w3, w4, -, -, eq⟩ := s.beforeSenders_stages w
  have m1 : v1.meters = s.meters := w1.same .meters (by simp)
  have m2 : v2.meters = v1.meters := w2.same .meters (by simp)
  have m4 : v4.meters = v2.meters := ((w4.same .meters (by simp)).trans (w3.same .meters (by simp))).trans
    ((Work.resetRequests v2).same .meters (by simp))
  have last : (s.trafficReset w).meters = (s.beforeSenders w).meters := (Work.senders s w).same .meters (by simp)
  unfold State.meter
  rw [last, eq]
  change Sparse.get Meter.blank (Sparse.mapValues Meter.blank Meter.refilled v4.meters) i = _
  rw [m4, m2, m1]
  exact Sparse.get_mapValues Meter.blank Meter.refilled rfl s.meters ((Sparse.wf_iff _ _).mp h).1 i

theorem State.resetRx_rx (p : TrunkPort) : ((s.resetRx p).trunk p).rx = { (s.trunk p).rx with reception := .waitSof } :=
  ((State.still_abandon (s.onRx p _) _).calm.rx p).trans (by cases p <;> rfl)

theorem State.receiversReset_rx (p : TrunkPort) :
    (s.receiversReset.trunk p).rx = { (s.trunk p).rx with reception := .waitSof } := by
  have start : (s.endPending.trunk p).rx = (s.trunk p).rx := by cases p <;> rfl
  unfold State.receiversReset
  rw [← start]
  generalize s.endPending = v
  have ended := (State.still_resetIngress ((v.resetRx .a).resetRx .b)).calm.rx p
  rw [ended]
  cases p with
  | a => exact ((Work.resetRx (v.resetRx .a) .b).same (.rx .a) (by simp)).trans (v.resetRx_rx .a)
  | b =>
    have first : ((v.resetRx .a).trunk .b).rx = (v.trunk .b).rx := (Work.resetRx v .a).same (.rx .b) (by simp)
    rw [State.resetRx_rx, first]

theorem State.trafficReset_rx (p : TrunkPort) :
    ((s.trafficReset w).trunk p).rx = { (s.trunk p).rx with reception := .waitSof } := by
  have late : Work [.steer, .requests, .mgmt, .enums, .egress, .meters, .tx .a, .tx .b] s.receiversReset (s.trafficReset w) := by
    have senders := (Work.senders s w).mono (G := [.steer, .requests, .mgmt, .enums, .egress, .meters, .tx .a, .tx .b]) (by simp)
    refine Work.trans ?_ senders
    unfold State.beforeSenders
    generalize s.receiversReset = v
    exact ((((Work.backlogsReset v).mono (by simp)).trans ((Work.holdersReset _).mono (by simp))).trans
      ((Work.resetEgress _ w).mono (by simp))).trans ((Work.refilled _).mono (by simp))
  exact (late.same (.rx p) (by simp)).trans (s.receiversReset_rx p)

theorem ingressAfterReset_settled (x : Ingress) (h : List Byte) (n : Nat) : ingressAfterReset x ≠ .waitRoom h n := by
  cases x with
  | waitRoom h n =>
    unfold ingressAfterReset
    dsimp only
    split <;> nofun
  | _ => exact nofun

/-- Local ingress after a traffic reset (R183). -/
theorem State.trafficReset_ingress : (s.trafficReset w).loc.ingress = ingressAfterReset s.loc.ingress := by
  have received : s.receiversReset.loc.ingress = ingressAfterReset s.loc.ingress := by
    have start : s.endPending.loc = s.loc := rfl
    unfold State.receiversReset
    rw [← start]
    generalize s.endPending = v
    exact (State.ingress_resetIngress _).trans ((v.told_resetRx .a).trans (State.told_resetRx _ .b)).afterReset
  have late : s.receiversReset.Told (s.trafficReset w) := by
    rw [State.trafficReset_eq]
    unfold State.beforeSenders
    generalize s.receiversReset = v
    have backlogs : v.Told v.backlogsReset :=
      ((v.told_resetBacklog .a).trans (State.told_resetBacklog _ .b)).trans (State.told_resetBacklog _ .l)
    generalize v.backlogsReset = y at backlogs
    have holders : y.Told y.holdersReset := (y.told_resetRequests).trans (State.told_resetEnums _)
    generalize y.holdersReset = z at holders
    have refilled : z.Told (z.resetEgress w).refilled := (z.told_resetEgress w).trans (.inl rfl)
    generalize (z.resetEgress w).refilled = x at refilled
    exact (backlogs.trans (holders.trans refilled)).trans
      (((x.told_resetSender .a w).trans (State.told_resetSender _ .b w)).trans (State.told_raiseEvent _ _ _ _))
  refine (late.same fun x n => ?_).trans received
  rw [received]
  exact ingressAfterReset_settled _ x n

end blocks

end Sys2Proof.Machine

end

section
/-! RESET_LIMIT_EXPIRY with a traffic reset pending: local egress, the sending sides, the events, and the whole (R89, R165,
R184). -/

namespace Sys2Proof.Machine

variable {s t u : State} {p : TrunkPort} {w : Watched}

/-! ### In a store with room -/

theorem State.undisturbed_holders (h : s.roomy) : s.Undisturbed s.receiversReset.backlogsReset.holdersReset := by
  have ended : s.Undisturbed s.endPending := .of_store h rfl rfl (fun y => by cases y <;> rfl) (fun y => by cases y <;> rfl) rfl
  unfold State.receiversReset
  generalize s.endPending = v at ended
  have received := ((ended.trans (State.undisturbed_resetRx ended.roomy .a)).trans
    (State.undisturbed_resetRx (State.undisturbed_resetRx ended.roomy .a).roomy .b))
  have settled := received.trans (State.undisturbed_resetIngress received.roomy)
  generalize ((v.resetRx .a).resetRx .b).resetIngress = x at settled
  unfold State.backlogsReset
  have a := settled.trans (State.undisturbed_resetBacklog settled.roomy .a)
  have b := a.trans (State.undisturbed_resetBacklog a.roomy .b)
  have l := b.trans (State.undisturbed_resetBacklog b.roomy .l)
  generalize ((x.resetBacklog .a).resetBacklog .b).resetBacklog .l = y at l
  have requests := l.trans (State.undisturbed_resetRequests l.roomy)
  exact requests.trans (State.undisturbed_resetEnums requests.roomy)

theorem State.undisturbed_beforeSenders (h : s.roomy) (w : Watched) :
    (s.setQueues .l (s.loc.queues.keep (isExempt w .l))).Undisturbed (s.beforeSenders w) := by
  have holders := State.undisturbed_holders h
  unfold State.beforeSenders
  generalize s.receiversReset.backlogsReset.holdersReset = v at holders
  have locals : v.loc.queues = s.loc.queues := holders.queues .l
  have egress := State.undisturbed_resetEgress holders.roomy w
  rw [locals] at egress
  have both := (holders.setQueues .l (s.loc.queues.keep (isExempt w .l))).trans egress
  exact both.trans (.of_store both.roomy rfl rfl (fun y => by cases y <;> rfl) (fun y => by cases y <;> rfl) rfl)

/-! ### Local egress -/

theorem State.resetEgress_egress (s : State) (w : Watched) :
    (∀ e k, s.loc.egress = .transfer e k → (s.resetEgress w).loc.egress =
      if isExempt w .l e then s.loc.egress else .aborting (s.markedByte e k)) ∧
      ((∀ e k, s.loc.egress ≠ .transfer e k) → (s.resetEgress w).loc.egress = s.loc.egress) := by
  have kept : ∀ v : State, (v.removeEntries .l (fun e => !isExempt w .l e)).loc.egress = v.loc.egress := fun v =>
    (State.still_removeEntries v _ _).calm.egress
  refine ⟨fun e k he => ?_, fun hn => ?_⟩
  · unfold State.resetEgress
    dsimp only
    rw [kept, he]
    dsimp only
    by_cases hx : isExempt w .l e = true
    · rw [if_neg (by rw [hx]; exact Bool.false_ne_true), if_pos hx, he]
    · rw [if_pos (by simpa using hx), if_neg hx, State.cutEgress_of_transfer he]
      rfl
  · unfold State.resetEgress
    dsimp only
    rw [kept, State.cutEgress_of_not_transfer hn, ite_self]

theorem State.trafficReset_egress (s : State) (w : Watched) : ∃ v : State, v.loc.egress = s.loc.egress ∧
    (s.roomy → s.Undisturbed v) ∧ (s.trafficReset w).loc.egress = (v.resetEgress w).loc.egress := by
  refine ⟨s.receiversReset.backlogsReset.holdersReset, ?_, State.undisturbed_holders, ?_⟩
  · have received : s.receiversReset.loc.egress = s.loc.egress := (Work.receiversReset s).same .egress (by simp)
    rw [← received]
    generalize s.receiversReset = v
    exact ((Work.holdersReset v.backlogsReset).same .egress (by simp)).trans ((Work.backlogsReset v).same .egress (by simp))
  · have last : (s.trafficReset w).loc.egress = (s.beforeSenders w).loc.egress := (Work.senders s w).same .egress (by simp)
    rw [last]
    unfold State.beforeSenders
    generalize s.receiversReset.backlogsReset.holdersReset = v
    rfl

/-! ### The sending sides -/

/-- The state `v` in which a port's sending side has its turn in a traffic reset from `s` to `t`, and what of it stays to the
end. -/
structure State.SenderTurn (s : State) (p : TrunkPort) (w : Watched) (t v : State) : Prop where
  tx : v.tx p = s.tx p
  usable : v.usable p = s.usable p
  params : v.params = s.params
  nodeTime : v.nodeTime = s.nodeTime
  after : t.tx p = (v.resetSender p w).tx p
  roomy : s.roomy → v.roomy
  queues : s.roomy → (v.trunk p).queues = (s.trunk p).queues
  stats : s.roomy → (v.trunk p).stats = (s.trunk p).stats
  arrival : s.roomy → ∀ r, (v.record r).arrival = (s.record r).arrival
  trunk : s.roomy → s.events.records ≠ [] → (t.trunk p).queues = ((v.resetSender p w).trunk p).queues ∧
    (t.trunk p).stats = ((v.resetSender p w).trunk p).stats

/-- Before the sending sides, the trunk ports are as at the start but for their receivers. -/
theorem State.beforeSenders_trunk (s : State) (w : Watched) (p : TrunkPort) :
    (s.beforeSenders w).tx p = s.tx p ∧ ((s.beforeSenders w).trunk p).link = (s.trunk p).link ∧
      (s.beforeSenders w).params = s.params ∧ (s.beforeSenders w).nodeTime = s.nodeTime :=
  ⟨s.beforeSenders_part w (x := .tx p) (by simp) (by cases p <;> rfl), s.beforeSenders_part w (x := .link p) (by simp)
      (by cases p <;> rfl),
    s.beforeSenders_part w (x := .params) (by simp) rfl, s.beforeSenders_part w (x := .nodeTime) (by simp) rfl⟩

theorem State.usable_congr (hp : t.params = s.params) (hl : (t.trunk p).link = (s.trunk p).link) : t.usable p = s.usable p := by
  unfold State.usable
  rw [hl, State.enabled_of_params s hp]

theorem State.beforeSenders_events (h : s.roomy) (w : Watched) : (s.beforeSenders w).events = s.events :=
  (State.undisturbed_beforeSenders h w).events.trans (by simp)

/-- The end of a traffic reset behind other events: RESET_DONE stored or lost, nothing else. -/
theorem State.trafficReset_end (h : s.roomy) (he : s.events.records ≠ []) (w : Watched) :
    (((s.beforeSenders w).resetSender .a w).resetSender .b w).events = s.events ∧
      s.trafficReset w = (((s.beforeSenders w).resetSender .a w).resetSender .b w).append .resetDone none (some 2) := by
  have events := State.beforeSenders_events h w
  have room := (State.undisturbed_beforeSenders h w).roomy
  rw [State.trafficReset_eq]
  generalize s.beforeSenders w = v at events room
  obtain ⟨a, -⟩ := State.senderWork_resetSender room .a w
  obtain ⟨b, -⟩ := State.senderWork_resetSender a.roomy .b w
  have same : ((v.resetSender .a w).resetSender .b w).events = s.events := b.events.trans (a.events.trans events)
  exact ⟨same, State.raiseEvent_behind _ _ _ (by rw [same]; exact he)⟩

theorem State.senderTurn (s : State) (p : TrunkPort) (w : Watched) : ∃ v, s.SenderTurn p w (s.trafficReset w) v := by
  obtain ⟨tx, link, params, nodeTime⟩ := s.beforeSenders_trunk w p
  have clean := fun h => State.undisturbed_beforeSenders (s := s) h w
  have ends := fun h he => State.trafficReset_end (s := s) h he w
  have last : ∀ q, (s.trafficReset w).tx q = (((s.beforeSenders w).resetSender .a w).resetSender .b w).tx q := fun q => by
    rw [State.trafficReset_eq]
    exact (State.still_raiseEvent _ _ _ _).calm.tx q
  have queues : s.roomy → ((s.beforeSenders w).trunk p).queues = (s.trunk p).queues := fun h => by
    rw [← State.trunk_queues, (clean h).queues, State.queues_setQueues, if_neg (by cases p <;> exact nofun), State.trunk_queues]
  have stats : s.roomy → ((s.beforeSenders w).trunk p).stats = (s.trunk p).stats := fun h =>
    ((clean h).stats p).trans (by cases p <;> rfl)
  have arrival : s.roomy → ∀ r, ((s.beforeSenders w).record r).arrival = (s.record r).arrival := fun h r =>
    ((clean h).arrival r).trans (by unfold State.record; rw [State.setQueues_store])
  have room : s.roomy → (s.beforeSenders w).roomy := fun h => (clean h).roomy
  generalize s.beforeSenders w = v at *
  have atEnd : ∀ (z : State) k q d y, ((z.append k q d).trunk y).queues = (z.trunk y).queues ∧
      ((z.append k q d).trunk y).stats = (z.trunk y).stats := fun z k q d y => by
    rw [State.append_rest]
    cases y <;> exact ⟨rfl, rfl⟩
  cases p with
  | a =>
    have second : ∀ h, _ := fun h => (State.senderWork_resetSender (State.senderWork_resetSender (room h) .a w).1.roomy .b w).1
    refine ⟨v, tx, State.usable_congr params link, params, nodeTime, ?_, room, queues, stats, arrival, fun h he => ?_⟩
    · exact (last .a).trans ((Work.resetSender _ .b w).same (.tx .a) (by simp))
    · rw [(ends h he).2]
      obtain ⟨q, st⟩ := (second h).other .a (by decide)
      obtain ⟨q', st'⟩ := atEnd ((v.resetSender .a w).resetSender .b w) .resetDone none (some 2) .a
      exact ⟨q'.trans q, st'.trans st⟩
  | b =>
    have first := fun h => (State.senderWork_resetSender (room h) .a w).1
    have work := Work.resetSender v .a w
    have params' : (v.resetSender .a w).params = s.params := (work.same .params (by simp)).trans params
    refine ⟨v.resetSender .a w, (work.same (.tx .b) (by simp)).trans tx,
      State.usable_congr params' ((work.same (.link .b) (by simp)).trans link), params',
      (work.same .nodeTime (by simp)).trans nodeTime, last .b, fun h => (first h).roomy,
      fun h => ((first h).other .b (by decide)).1.trans (queues h), fun h => ((first h).other .b (by decide)).2.trans (stats h),
      fun h r => ((first h).arrival r).trans (arrival h r), fun h he => ?_⟩
    rw [(ends h he).2]
    exact atEnd _ _ _ _ _

/-- A response held at a usable port is sent again at once if it passes the residence check (R89). -/
theorem State.resetSender_again {e : Entry} (h : s.roomy) (hf : (s.tx p).inFlight = some e) (hw : w = some (portOf p, e.frame))
    (hs : (s.tx p).state = .held) (hu : s.usable p = true) (hr : s.fresh e.frame = true) :
    (s.resetSender p w).tx p = { (s.tx p) with state := .sending, sent := true, acked := false, timer := none } := by
  have exempt : isExempt w (portOf p) e = true := decide_eq_true hw
  have reset : (s.tx p).reset p w = (s.tx p).suspended := by
    unfold Transmitter.reset
    rw [hf]
    dsimp only
    rw [if_pos exempt, if_pos hs]
  have emptied := State.undisturbed_emptied h p w
  have calm : Work [.tx p] s (s.emptied p w) := (Work.resetTx s p w).trans (State.still_removeEntries _ _ _).work
  have params : (s.emptied p w).params = s.params := calm.same .params (by simp)
  have time : (s.emptied p w).nodeTime = s.nodeTime := calm.same .nodeTime (by simp)
  have arrival : ((s.emptied p w).record e.frame).arrival = (s.record e.frame).arrival :=
    (emptied.arrival e.frame).trans (by unfold State.record; rw [State.setQueues_store])
  have fresh : (s.emptied p w).fresh e.frame = true := by
    unfold State.fresh
    rw [params, time, arrival]
    exact hr
  have tx := s.emptied_tx p w
  rw [reset] at tx
  have again : (s.emptied p w).resume p = (s.emptied p w).startCopy p := by
    unfold State.resume State.retransmit
    rw [tx, if_pos (show (s.tx p).suspended.state = .idle from rfl), show (s.tx p).suspended.inFlight = some e from hf]
    exact if_pos fresh
  have copied : ((s.emptied p w).startCopy p).tx p = ((s.emptied p w).tx p).copying := by
    rw [State.startCopy_eq]
    cases p <;> rfl
  have flight : (s.tx p).suspended.inFlight = some e := hf
  rw [State.resetSender_eq, reset, flight, hs, hu]
  rw [if_pos (by rfl), again, copied, tx]
  rfl

theorem isExempt_iff (w : Watched) (q : Port) (e : Entry) : isExempt w q e = true ↔ w = some (q, e.frame) := decide_eq_true_iff

/-- Settles O13: each block has its turn, and what it leaves the later ones keep. -/
theorem trafficResetAtLimit : Obligations.TrafficResetAtLimit := by
  intro s w hm hx
  have run : exec .resetLimitExpiry s = .next (s.trafficReset w) := by
    show execResetLimitExpiry s = _
    unfold execResetLimitExpiry
    rw [hx]
    unfold State.performReset
    rfl
  have pending : s.resetPending = true := by
    unfold State.resetPending
    rw [hx]
  have mgmt := s.trafficReset_mgmt w
  have steer := s.trafficReset_steer w
  have work := Work.trafficReset s w pending
  have ingress := s.trafficReset_ingress w
  have meters := s.trafficReset_meters w hm
  have enums := s.trafficReset_enums w
  have rx := s.trafficReset_rx w
  have turns := fun p => s.senderTurn p w
  have ends := fun hroom he => State.trafficReset_end (s := s) hroom he w
  obtain ⟨v, started, clean, egress⟩ := s.trafficReset_egress w
  obtain ⟨cut, kept⟩ := v.resetEgress_egress w
  generalize s.trafficReset w = t at *
  refine ⟨t, run, by rw [mgmt], by rw [mgmt], enums, by rw [steer], by rw [steer], by rw [steer],
    by rw [steer], rx .a, rx .b, work.same (.link .a) (by simp), work.same (.link .b) (by simp),
    meters, work.same .counters (by simp), work.same .numbering (by simp), work.same .session (by simp),
    work.same .params (by simp), by rw [mgmt], by rw [mgmt], work.same .nodeTime (by simp), by rw [steer], by rw [steer],
    by rw [steer], by rw [steer], fun p e hf => ?_, fun p hf => ?_, ?_, fun e k he => ⟨fun hw => ?_, fun hw hroom => ?_⟩,
        fun hn => ?_,
    fun hroom he => ⟨fun hl => ?_, ?_, ?_, fun p => ⟨fun hs => ?_, fun x hxq => ?_, fun e hf hw hs hu hr => ?_⟩⟩⟩
  · obtain ⟨z, turn⟩ := turns p
    have flight : (z.tx p).inFlight = some e := by rw [turn.tx]; exact hf
    have reset : (z.tx p).reset p w =
        if isExempt w (portOf p) e then (if (z.tx p).state = .held then (z.tx p).suspended else z.tx p) else
            (z.tx p).vacated := by
      unfold Transmitter.reset
      rw [flight]
    rw [turn.after]
    refine ⟨fun hw => ?_, fun hw hs => ?_, fun hw hs hu => ?_⟩
    · rw [if_neg (by rw [isExempt_iff]; exact hw)] at reset
      rw [State.resetSender_tx (.inr (.inr (by rw [reset]; rfl))), reset, turn.tx]
    · rw [if_pos ((isExempt_iff _ _ _).mpr hw), if_neg (by rw [turn.tx]; exact hs)] at reset
      rw [State.resetSender_tx (.inl (by rw [turn.tx]; exact hs)), reset, turn.tx]
    · rw [if_pos ((isExempt_iff _ _ _).mpr hw), if_pos (by rw [turn.tx]; exact hs)] at reset
      rw [State.resetSender_tx (.inr (.inl (by rw [turn.usable]; exact hu))), reset, turn.tx]
      rfl
  · obtain ⟨z, turn⟩ := turns p
    have reset : (z.tx p).reset p w = (z.tx p).cleared := by
      unfold Transmitter.reset
      rw [turn.tx, hf]
    rw [turn.after, State.resetSender_tx (.inr (.inr (by rw [reset]; rfl))), reset, turn.tx]
    rfl
  · rw [ingress]
    cases s.loc.ingress with
    | waitRoom h n =>
      unfold ingressAfterReset
      dsimp only
      have zero : (parseHeader h).length.toNat = 0 ↔ (parseHeader h).length = 0 := by
        rw [← BitVec.toNat_inj]
        rfl
      simp only [zero]
    | _ => rfl
  · rw [egress, cut e k (started.trans he), if_pos ((isExempt_iff _ _ _).mpr hw), started]
  · rw [egress, cut e k (started.trans he), if_neg (by rw [isExempt_iff]; exact hw)]
    rw [← (clean hroom).frameBytes e.frame]
    exact (v.markedByte_cases e k).imp (congrArg Egress.aborting) (congrArg Egress.aborting)
  · rw [egress, kept (fun e k he => hn e k (started.symm.trans he)), started]
  · obtain ⟨events, last⟩ := ends hroom he
    have time : (((s.beforeSenders w).resetSender .a w).resetSender .b w).nodeTime = s.nodeTime :=
      ((Work.resetSender _ .b w).same .nodeTime (by simp)).trans (((Work.resetSender _ .a w).same .nodeTime (by simp)).trans
        (s.beforeSenders_trunk w .a).2.2.2)
    have params : (((s.beforeSenders w).resetSender .a w).resetSender .b w).params = s.params :=
      ((Work.resetSender _ .b w).same .params (by simp)).trans (((Work.resetSender _ .a w).same .params (by simp)).trans
        (s.beforeSenders_trunk w .a).2.2.1)
    rw [last]
    generalize ((s.beforeSenders w).resetSender .a w).resetSender .b w = z at events time params
    rw [State.append_stored (by rw [events]; exact hl)]
    unfold State.newRecord
    rw [events, time, params]
  · obtain ⟨-, last⟩ := ends hroom he
    have room := (State.undisturbed_beforeSenders hroom w).roomy
    have queues := (State.undisturbed_beforeSenders hroom w).queues .l
    rw [last, State.append_rest]
    dsimp only
    generalize s.beforeSenders w = z at room queues
    obtain ⟨a, -⟩ := State.senderWork_resetSender room .a w
    obtain ⟨b, -⟩ := State.senderWork_resetSender a.roomy .b w
    exact b.locQueues.trans (a.locQueues.trans queues)
  · obtain ⟨-, last⟩ := ends hroom he
    have room := (State.undisturbed_beforeSenders hroom w).roomy
    have stats := (State.undisturbed_beforeSenders hroom w).locStats
    rw [last, State.append_rest]
    dsimp only
    generalize s.beforeSenders w = z at room stats
    obtain ⟨a, -⟩ := State.senderWork_resetSender room .a w
    obtain ⟨b, -⟩ := State.senderWork_resetSender a.roomy .b w
    exact b.locStats.trans (a.locStats.trans stats)
  · obtain ⟨z, turn⟩ := turns p
    obtain ⟨-, own, -⟩ := State.senderWork_resetSender (turn.roomy hroom) p w
    obtain ⟨queues, stats⟩ := own (by rw [turn.tx]; exact hs)
    obtain ⟨queues', stats'⟩ := turn.trunk hroom he
    rw [queues', stats', queues, stats, turn.queues hroom, turn.stats hroom]
    exact ⟨rfl, rfl⟩
  · obtain ⟨z, turn⟩ := turns p
    obtain ⟨-, -, exempt⟩ := State.senderWork_resetSender (turn.roomy hroom) p w
    rw [(turn.trunk hroom he).1] at hxq
    exact exempt x hxq
  · obtain ⟨z, turn⟩ := turns p
    have fresh : z.fresh e.frame = true := by
      unfold State.fresh
      rw [turn.params, turn.nodeTime, turn.arrival hroom]
      exact hr
    rw [turn.after, State.resetSender_again (turn.roomy hroom) (by rw [turn.tx]; exact hf) hw (by rw [turn.tx]; exact hs)
      (by rw [turn.usable]; exact hu) fresh, turn.tx]

end Sys2Proof.Machine

end

section
/-! The books of the frame store with records in hand: what an operation may have taken out of one place and not yet put into
the next, between two commands (R28, R29, R38). -/

namespace Sys2Proof.Machine

variable {s t u : State} {H F B : List Nat} {r : Nat}

/-! ### The records of a port's entries -/

/-- The records of a port's entries. -/
def QueueSet.frames (x : QueueSet) : List Nat := x.entries.map Entry.frame

theorem QueueSet.frames_eq (x : QueueSet) : x.frames = x.c0 ++ x.c1 ++ x.c2 ++ x.c3 := by
  have own : ∀ (c : TrafficClass) (l : List Nat), (l.map (fun r => ({ cls := c, frame := r } : Entry))).map Entry.frame = l :=
    fun c l => by rw [List.map_map]; exact List.map_id l
  unfold QueueSet.frames QueueSet.entries
  rw [List.map_append, List.map_append, List.map_append, own, own, own, own]

theorem QueueSet.mem_frames {x : QueueSet} : r ∈ x.frames ↔ x.holds r = true := by
  simp [QueueSet.frames_eq, QueueSet.holds, or_assoc]

/-- One class replaced: its records go, the new ones come. -/
theorem QueueSet.count_frames_set (x : QueueSet) (c : TrafficClass) (l : List Nat) (y : Nat) :
    (x.set c l).frames.count y + (x.get c).count y = x.frames.count y + l.count y := by
  have set : ∀ z : QueueSet, z.frames.count y = z.c0.count y + z.c1.count y + z.c2.count y + z.c3.count y := fun z => by
    rw [QueueSet.frames_eq, List.count_append, List.count_append, List.count_append]
  rw [set, set]
  rcases class_cases c with rfl | rfl | rfl | rfl
  · show l.count y + x.c1.count y + x.c2.count y + x.c3.count y + x.c0.count y = _
    omega
  · show x.c0.count y + l.count y + x.c2.count y + x.c3.count y + x.c1.count y = _
    omega
  · show x.c0.count y + x.c1.count y + l.count y + x.c3.count y + x.c2.count y = _
    omega
  · show x.c0.count y + x.c1.count y + x.c2.count y + l.count y + x.c3.count y = _
    omega

theorem count_cons_if (l : List Nat) (r y : Nat) : (r :: l).count y = l.count y + if y = r then 1 else 0 := by
  by_cases h : y = r
  · subst h
    simp
  · rw [List.count_cons_of_ne (Ne.symm h), if_neg h, Nat.add_zero]

theorem count_ne_zero_iff {l : List Nat} : l.count r ≠ 0 ↔ r ∈ l := by rw [ne_eq, List.count_eq_zero, not_not]

theorem QueueSet.count_frames_push (x : QueueSet) (c : TrafficClass) (r y : Nat) :
    (x.push c r).frames.count y = x.frames.count y + if y = r then 1 else 0 := by
  have set := x.count_frames_set c (x.get c ++ [r]) y
  rw [List.count_append, count_cons_if, List.count_nil] at set
  have same : (x.push c r).frames = (x.set c (x.get c ++ [r])).frames := rfl
  rw [same]
  omega

theorem QueueSet.count_frames_without {x : QueueSet} {e : Entry} (h : e ∈ x.entries) (y : Nat) :
    (x.without e).frames.count y + (if y = e.frame then 1 else 0) = x.frames.count y := by
  rw [QueueSet.mem_entries] at h
  have set := x.count_frames_set e.cls ((x.get e.cls).erase e.frame) y
  have gone := (List.perm_cons_erase h).count_eq y
  rw [count_cons_if] at gone
  have same : (x.without e).frames = (x.set e.cls ((x.get e.cls).erase e.frame)).frames := rfl
  rw [same]
  omega

theorem QueueSet.mem_entries_push {x : QueueSet} {c : TrafficClass} {r : Nat} {e : Entry} (h : e ∈ x.entries) :
    e ∈ (x.push c r).entries := by
  rw [QueueSet.mem_entries] at h ⊢
  rw [QueueSet.push_get]
  split
  · next hc =>
    subst hc
    exact List.mem_append_left _ h
  · exact h

/-- Another entry stays. -/
theorem QueueSet.mem_entries_without_of_ne {x : QueueSet} {e d : Entry} (h : d ∈ x.entries) (hd : d ≠ e) :
    d ∈ (x.without e).entries := by
  rw [QueueSet.mem_entries] at h ⊢
  rw [QueueSet.without_get]
  split
  · next hc =>
    rw [← hc]
    refine (List.mem_erase_of_ne fun hf => hd ?_).mpr h
    cases d; cases e
    cases hc; cases hf
    rfl
  · exact h

/-! ### Who holds a record -/

/-- How many entries of the egress queues hold a record. -/
def State.entered (s : State) (r : Nat) : Nat :=
  (s.queues .a).frames.count r + (s.queues .b).frames.count r + (s.queues .l).frames.count r

/-- How often M, the numbering unit and the cache hold a record. -/
def State.heldAside (s : State) (r : Nat) : Nat :=
  (s.mgmt.queue.map Request.frame).count r + s.enums.count r + (s.mgmt.cache.map CacheEntry.frame).count r

theorem State.holders_eq (s : State) (r : Nat) : s.holders r = s.entered r + s.heldAside r := by
  simp only [State.holders, State.entered, State.heldAside, QueueSet.frames, List.map_append, List.count_append]
  omega

theorem State.isQueued_iff_entered : s.isQueued r = true ↔ s.entered r ≠ 0 := by
  have port : ∀ x : QueueSet, x.holds r = true ↔ x.frames.count r ≠ 0 := fun x => by
    rw [← QueueSet.mem_frames, count_ne_zero_iff]
  unfold State.isQueued State.entered
  rw [Bool.or_eq_true, Bool.or_eq_true, port, port, port]
  omega

theorem State.isQueued_congr (h : t.entered r = s.entered r) : t.isQueued r = s.isQueued r := by
  rw [Bool.eq_iff_iff, State.isQueued_iff_entered, State.isQueued_iff_entered, h]

theorem State.entered_congr (h : ∀ q, t.queues q = s.queues q) (r : Nat) : t.entered r = s.entered r := by
  unfold State.entered
  rw [h, h, h]

/-- How often a record is held, `H` being references in hand. -/
def State.kept (s : State) (H : List Nat) (r : Nat) : Nat := s.entered r + s.heldAside r + H.count r

/-- How often a record waits for the steering unit, `B` being frames in hand. -/
def State.waits (s : State) (B : List Nat) (r : Nat) : Nat := s.backlogged.count r + B.count r

/-- The books of the frame store with the references `H` in hand, the records `F` being filled and, beside the backlogs, the
frames `B` in hand. -/
structure State.Books (s : State) (H F B : List Nat) : Prop where
  pages : s.pagesBalanced
  free : s.store.freeRecs.Nodup ∧ ∀ r ∈ s.store.freeRecs, r < Config.recordCount
  held : ∀ src, s.store.held.get src =
    ((s.usedRecords.filter (fun r => (s.record r).source = src)).map (fun r => (s.record r).pages.length)).sum
  size : ∀ r ∈ s.usedRecords, (s.record r).pages.length = ((s.record r).size + 63) / 64
  refs : ∀ r ∈ s.usedRecords, (s.record r).refs = s.kept H r
  placed : ∀ r ∈ s.usedRecords, F.count r + s.waits B r + (if s.kept H r = 0 then 0 else 1) = 1
  state : ∀ r ∈ s.usedRecords, (s.record r).state =
    if F.count r ≠ 0 then .filling else if s.isQueued r then .queued else .waiting
  unheld : ∀ r, r ∉ s.usedRecords → s.kept H r = 0 ∧ F.count r = 0 ∧ s.waits B r = 0
  single : ∀ q : Port, (s.queues q).frames.Nodup

/-- Every frame in flight or in transfer is an entry of its port (R66, R181). -/
structure State.InPlace (s : State) : Prop where
  flight : ∀ p e, (s.tx p).inFlight = some e → e ∈ (s.queues (portOf p)).entries
  transfer : ∀ e k, s.loc.egress = .transfer e k → e ∈ (s.queues .l).entries

theorem State.storeSound_iff (s : State) : s.StoreSound ↔ s.Books [] s.filling [] ∧ s.InPlace := by
  have kept : ∀ r, s.kept [] r = s.holders r := fun r => by rw [State.holders_eq]; rfl
  have waits : ∀ r, s.waits [] r = s.backlogged.count r := fun r => rfl
  have queues : ∀ p, (s.trunk p).queues = s.queues (portOf p) := fun p => by cases p <;> rfl
  have filling : ∀ r, s.filling.count r ≠ 0 ↔ r ∈ s.filling := fun r => count_ne_zero_iff
  constructor
  · intro h
    refine ⟨⟨h.pages, h.free, h.held, h.size, fun r hr => by rw [kept]; exact h.refs r hr,
      fun r hr => by rw [kept, waits]; exact h.placed r hr, fun r hr => ?_, fun r hr => ?_, h.single⟩,
      fun p e he => by rw [← queues]; exact h.flight p e he, h.transfer⟩
    · simp only [filling]
      exact h.state r hr
    · obtain ⟨hh, hf, hb⟩ := h.unheld r hr
      exact ⟨by rw [kept, hh], List.count_eq_zero.mpr hf, by rw [waits]; exact List.count_eq_zero.mpr hb⟩
  · rintro ⟨k, h⟩
    refine { pages := k.pages, free := k.free, held := k.held, size := k.size, refs := fun r hr => ?_, placed := fun r hr => ?_,
             state := fun r hr => ?_, unheld := fun r hr => ?_, single := k.single, flight := fun p e he => ?_,
             transfer := h.transfer }
    · rw [← kept]; exact k.refs r hr
    · rw [← kept]; exact k.placed r hr
    · simp only [← filling]
      exact k.state r hr
    · obtain ⟨hh, hf, hb⟩ := k.unheld r hr
      exact ⟨by rw [← kept, hh], List.count_eq_zero.mp hf, List.count_eq_zero.mp (by rw [waits] at hb; exact hb)⟩
    · rw [queues]; exact h.flight p e he

end Sys2Proof.Machine

end

section
/-! How the books of the frame store follow an operation: one that moves no record, one that moves one record, an admission and
a release. -/

namespace Sys2Proof.Machine

variable {s t u : State} {H H' F F' B B' : List Nat} {r : Nat}

/-! ### Operations that move no page -/

/-- No page and no record is taken or given back, and every record keeps its pages. -/
structure State.SameRoom (s t : State) : Prop where
  freePages : t.store.freePages = s.store.freePages
  freeRecs : t.store.freeRecs = s.store.freeRecs
  held : t.store.held = s.store.held
  pages : ∀ r, (t.record r).pages = (s.record r).pages
  size : ∀ r, (t.record r).size = (s.record r).size
  source : ∀ r, (t.record r).source = (s.record r).source

theorem State.SameRoom.usedRecords (m : s.SameRoom t) : t.usedRecords = s.usedRecords := State.usedRecords_congr m.freeRecs

/-- Where no page moves, the books are those of references, places and states. -/
theorem State.Books.of_sameRoom (k : s.Books H F B) (m : s.SameRoom t)
    (refs : ∀ r ∈ s.usedRecords, (t.record r).refs = t.kept H' r)
    (placed : ∀ r ∈ s.usedRecords, F'.count r + t.waits B' r + (if t.kept H' r = 0 then 0 else 1) = 1)
    (state : ∀ r ∈ s.usedRecords, (t.record r).state =
      if F'.count r ≠ 0 then .filling else if t.isQueued r then .queued else .waiting)
    (unheld : ∀ r, r ∉ s.usedRecords → t.kept H' r = 0 ∧ F'.count r = 0 ∧ t.waits B' r = 0)
    (single : ∀ q : Port, (t.queues q).frames.Nodup) : t.Books H' F' B' where
  pages := by
    have pages := k.pages
    rw [State.pagesBalanced_iff] at pages ⊢
    rw [m.usedRecords, m.freePages]
    simp only [m.pages]
    exact pages
  free := by rw [m.freeRecs]; exact k.free
  held src := by
    rw [m.usedRecords, m.held]
    simp only [m.pages, m.source]
    exact k.held src
  size r hr := by
    rw [m.usedRecords] at hr
    rw [m.pages, m.size]
    exact k.size r hr
  refs := by rw [m.usedRecords]; exact refs
  placed := by rw [m.usedRecords]; exact placed
  state := by rw [m.usedRecords]; exact state
  unheld := by rw [m.usedRecords]; exact unheld
  single := single

/-- No record changes; what is held, filled and waiting is the same. -/
theorem State.Books.same (k : s.Books H F B) (hp : t.store.freePages = s.store.freePages)
    (hr : t.store.freeRecs = s.store.freeRecs) (hh : t.store.held = s.store.held) (records : ∀ r, t.record r = s.record r)
    (kept : ∀ r, t.kept H' r = s.kept H r) (entered : ∀ r, t.entered r = s.entered r)
    (filled : ∀ r, F'.count r = F.count r) (waits : ∀ r, t.waits B' r = s.waits B r)
    (single : ∀ q : Port, (t.queues q).frames.Nodup) : t.Books H' F' B' := by
  refine k.of_sameRoom ⟨hp, hr, hh, fun r => by rw [records], fun r => by rw [records], fun r => by rw [records]⟩
    (fun r hr => ?_) (fun r hr => ?_) (fun r hr => ?_) (fun r hr => ?_) single
  · rw [records, kept]; exact k.refs r hr
  · rw [filled, waits, kept]; exact k.placed r hr
  · rw [records, filled, State.isQueued_congr (entered r)]; exact k.state r hr
  · rw [kept, filled, waits]; exact k.unheld r hr

/-- What is in hand may be listed in any order. -/
theorem State.Books.perm (k : s.Books H F B) (hH : H'.Perm H) (hF : F'.Perm F) (hB : B'.Perm B) : s.Books H' F' B' :=
  k.same rfl rfl rfl (fun _ => rfl) (fun r => by unfold State.kept; rw [hH.count_eq]) (fun _ => rfl) (fun r => hF.count_eq r)
    (fun r => by unfold State.waits; rw [hB.count_eq]) k.single

/-- An operation that reaches none of the places where records are held. -/
structure State.Apart (s t : State) : Prop where
  freePages : t.store.freePages = s.store.freePages
  freeRecs : t.store.freeRecs = s.store.freeRecs
  held : t.store.held = s.store.held
  recs : t.store.recs = s.store.recs
  queues : ∀ q, t.queues q = s.queues q
  backlogged : t.backlogged = s.backlogged
  requests : t.mgmt.queue = s.mgmt.queue
  enums : t.enums = s.enums
  cache : t.mgmt.cache = s.mgmt.cache

theorem State.Apart.heldAside (h : s.Apart t) (r : Nat) : t.heldAside r = s.heldAside r := by
  unfold State.heldAside
  rw [h.requests, h.enums, h.cache]

theorem State.Apart.record (h : s.Apart t) (r : Nat) : t.record r = s.record r := by
  unfold State.record
  rw [h.recs]

theorem State.Apart.kept (h : s.Apart t) (H : List Nat) (r : Nat) : t.kept H r = s.kept H r := by
  unfold State.kept
  rw [h.heldAside, State.entered_congr h.queues]

theorem State.Apart.books (h : s.Apart t) (k : s.Books H F B) : t.Books H F B :=
  k.same h.freePages h.freeRecs h.held h.record (h.kept H) (State.entered_congr h.queues) (fun _ => rfl)
    (fun r => by unfold State.waits; rw [h.backlogged]) (fun q => by rw [h.queues]; exact k.single q)

theorem State.Apart.refl (s : State) : s.Apart s := ⟨rfl, rfl, rfl, rfl, fun _ => rfl, rfl, rfl, rfl, rfl⟩

theorem State.Apart.trans (h : s.Apart t) (g : t.Apart u) : s.Apart u where
  freePages := g.freePages.trans h.freePages
  freeRecs := g.freeRecs.trans h.freeRecs
  held := g.held.trans h.held
  recs := g.recs.trans h.recs
  queues q := (g.queues q).trans (h.queues q)
  backlogged := g.backlogged.trans h.backlogged
  requests := g.requests.trans h.requests
  enums := g.enums.trans h.enums
  cache := g.cache.trans h.cache

/-! ### Operations on one record -/

/-- Of all records only `r` may change, and of it only its state and its references; no page moves. -/
structure State.Rebooked (r : Nat) (s t : State) : Prop where
  freePages : t.store.freePages = s.store.freePages
  freeRecs : t.store.freeRecs = s.store.freeRecs
  held : t.store.held = s.store.held
  own : t.record r = { s.record r with state := (t.record r).state, refs := (t.record r).refs }
  other : ∀ x, x ≠ r → t.record x = s.record x

theorem State.Rebooked.sameRoom (m : State.Rebooked r s t) : s.SameRoom t := by
  refine ⟨m.freePages, m.freeRecs, m.held, fun x => ?_, fun x => ?_, fun x => ?_⟩ <;> by_cases h : x = r
  · rw [h, m.own]
  · rw [m.other x h]
  · rw [h, m.own]
  · rw [m.other x h]
  · rw [h, m.own]
  · rw [m.other x h]

/-- One record written. -/
theorem State.rebooked_setRecord (s : State) (r n : Nat) (x : RecordState) :
    State.Rebooked r s (s.setRecord r { s.record r with state := x, refs := n }) :=
  ⟨rfl, rfl, rfl, by rw [State.record_setRecord_same], fun y hy => by rw [State.record_setRecord, if_neg hy]⟩

/-- One record moves, whose references, place and state are right after it; every other record stays where it was. -/
theorem State.Books.moved (k : s.Books H F B) (m : State.Rebooked r s t) (hr : r ∈ s.usedRecords)
    (kept : ∀ x, x ≠ r → t.kept H' x = s.kept H x) (entered : ∀ x, x ≠ r → t.entered x = s.entered x)
    (filled : ∀ x, x ≠ r → F'.count x = F.count x) (waits : ∀ x, x ≠ r → t.waits B' x = s.waits B x)
    (refs : (t.record r).refs = t.kept H' r)
    (placed : F'.count r + t.waits B' r + (if t.kept H' r = 0 then 0 else 1) = 1)
    (state : (t.record r).state = if F'.count r ≠ 0 then .filling else if t.isQueued r then .queued else .waiting)
    (single : ∀ q : Port, (t.queues q).frames.Nodup) : t.Books H' F' B' := by
  refine k.of_sameRoom m.sameRoom (fun x hx => ?_) (fun x hx => ?_) (fun x hx => ?_) (fun x hx => ?_) single
  · by_cases h : x = r
    · rw [h, refs]
    · rw [m.other x h, kept x h]; exact k.refs x hx
  · by_cases h : x = r
    · rw [h, placed]
    · rw [filled x h, waits x h, kept x h]; exact k.placed x hx
  · by_cases h : x = r
    · rw [h, state]
    · rw [m.other x h, filled x h, State.isQueued_congr (entered x h)]; exact k.state x hx
  · have h : x ≠ r := fun e => hx (e ▸ hr)
    rw [kept x h, filled x h, waits x h]
    exact k.unheld x hx

/-! ### Records in hand -/

/-- A record that is held, filled or waits is not free. -/
theorem State.Books.used (k : s.Books H F B) (h : s.kept H r ≠ 0 ∨ F.count r ≠ 0 ∨ s.waits B r ≠ 0) : r ∈ s.usedRecords := by
  by_contra hr
  obtain ⟨hh, hf, hb⟩ := k.unheld r hr
  exact h.elim (· hh) fun h => h.elim (· hf) (· hb)

/-- Record `r` is in the operation's hands: held by what it has placed, or in hand beside the lists `F` and `B`. -/
structure State.Given (s : State) (r : Nat) (H F B : List Nat) : Prop where
  own : r ∈ s.usedRecords
  alone : s.backlogged.count r = 0
  books : ∃ F' B', s.Books H F' B' ∧ F = F'.erase r ∧ B = B'.erase r

theorem State.Books.given_filling (k : s.Books H (r :: F) B) : s.Given r H F B := by
  have own := k.used (r := r) (.inr (.inl (by rw [List.count_cons_self]; omega)))
  have placed := k.placed r own
  rw [List.count_cons_self] at placed
  unfold State.waits at placed
  have waiting : B.count r = 0 := by omega
  exact ⟨own, by omega, r :: F, B, k, by rw [List.erase_cons_head],
    (List.erase_of_not_mem (List.count_eq_zero.mp waiting)).symm⟩

theorem State.Books.given_waiting (k : s.Books H F (r :: B)) : s.Given r H F B := by
  have own := k.used (r := r) (.inr (.inr (by unfold State.waits; rw [List.count_cons_self]; omega)))
  have placed := k.placed r own
  unfold State.waits at placed
  rw [List.count_cons_self] at placed
  have filling : F.count r = 0 := by omega
  exact ⟨own, by omega, F, r :: B, k, (List.erase_of_not_mem (List.count_eq_zero.mp filling)).symm, by rw [List.erase_cons_head]⟩

/-- A held record is in no list. -/
theorem State.Books.lists_of_held (k : s.Books H F B) (h : s.kept H r ≠ 0) :
    F.count r = 0 ∧ s.backlogged.count r = 0 ∧ B.count r = 0 := by
  have placed := k.placed r (k.used (.inl h))
  rw [if_neg h] at placed
  unfold State.waits at placed
  omega

theorem State.Books.given_held (k : s.Books H F B) (h : s.kept H r ≠ 0) : s.Given r H F B := by
  obtain ⟨hf, hs, hb⟩ := k.lists_of_held h
  exact ⟨k.used (.inl h), hs, F, B, k, (List.erase_of_not_mem (List.count_eq_zero.mp hf)).symm,
    (List.erase_of_not_mem (List.count_eq_zero.mp hb)).symm⟩

end Sys2Proof.Machine

end

section
/-! Admission, release, placement and a dropped reference keep the books. -/

namespace Sys2Proof.Machine

variable {s t u : State} {H H' F F' B B' : List Nat} {r : Nat}

/-! ### Admission and release -/

theorem Held.get_on (h : Held) (f : Nat → Nat) (x y : Source) : (h.on f x).get y = if x = y then f (h.get y) else h.get y := by
  cases x <;> cases y <;> rfl

/-- A record admitted is in hand, being filled. -/
theorem State.Books.takeRoom {src : Source} {len : Nat} (k : s.Books H F B) (h : s.takeRoom src len = some (r, t)) :
    t.Books H (r :: F) B := by
  obtain ⟨rest, hr, rfl, room, -⟩ := State.takeRoom_cases h
  obtain ⟨nodup, bound⟩ := k.free
  have low : r < 256 := bound r (by rw [hr]; exact List.mem_cons_self ..)
  have fresh : r ∉ s.usedRecords := fun e => (State.mem_usedRecords.mp e).2 (by rw [hr]; exact List.mem_cons_self ..)
  have used := State.usedRecords_took (t := s.taken src len r rest) hr rfl nodup low
  have old : ∀ {x}, x ∈ s.usedRecords → x ≠ r := fun hx e => fresh (e ▸ hx)
  have record : ∀ x, x ≠ r → (s.taken src len r rest).record x = s.record x := fun x hx => State.taken_record_other hx
  have pages : (s.store.freePages.take (pagesNeeded len)).length = pagesNeeded len := by
    rw [List.length_take]
    omega
  obtain ⟨unkept, unfilled, unwaited⟩ := k.unheld r fresh
  have kept : ∀ x, (s.taken src len r rest).kept H x = s.kept H x := fun _ => rfl
  have waits : ∀ x, (s.taken src len r rest).waits B x = s.waits B x := fun _ => rfl
  have queued : ∀ x, (s.taken src len r rest).isQueued x = s.isQueued x := fun _ => rfl
  have cases : ∀ {x}, x ∈ (s.taken src len r rest).usedRecords → x = r ∨ x ∈ s.usedRecords := fun hx =>
    List.mem_cons.mp (used.mem_iff.mp hx)
  rw [hr, List.nodup_cons] at nodup
  refine ⟨State.pagesBalanced_taken hr (by rw [hr, List.nodup_cons]; exact nodup) low k.pages,
    ⟨nodup.2, fun x hx => bound x (by rw [hr]; exact List.mem_cons_of_mem _ hx)⟩, fun y => ?_, fun x hx => ?_, fun x hx => ?_,
    fun x hx => ?_, fun x hx => ?_, fun x hx => ?_, k.single⟩
  · have sum := ((used.filter (fun x => ((s.taken src len r rest).record x).source = y)).map
      (fun x => ((s.taken src len r rest).record x).pages.length)).sum_eq
    have others : (s.usedRecords.filter (fun x => ((s.taken src len r rest).record x).source = y)).map
        (fun x => ((s.taken src len r rest).record x).pages.length) =
        (s.usedRecords.filter (fun x => (s.record x).source = y)).map (fun x => (s.record x).pages.length) := by
      rw [List.filter_congr fun x hx => by rw [record x (old hx)]]
      exact List.map_congr_left fun x hx => by rw [record x (old (List.mem_filter.mp hx).1)]
    rw [sum, List.filter_cons, State.taken_record]
    show (s.store.held.on (· + pagesNeeded len) src).get y = _
    rw [Held.get_on, k.held y]
    by_cases hy : src = y
    · rw [if_pos hy, if_pos (by simpa using hy), List.map_cons, List.sum_cons, others, State.taken_record, pages, Nat.add_comm]
    · rw [if_neg hy, if_neg (by simpa using hy), others]
  · rcases cases hx with rfl | hx
    · rw [State.taken_record]
      exact pages
    · rw [record x (old hx)]
      exact k.size x hx
  · rcases cases hx with rfl | hx
    · rw [State.taken_record, kept, unkept]
    · rw [record x (old hx), kept]
      exact k.refs x hx
  · rw [waits, kept]
    rcases cases hx with rfl | hx
    · rw [List.count_cons_self, unfilled, unwaited, unkept]
      rfl
    · rw [List.count_cons_of_ne (old hx).symm]
      exact k.placed x hx
  · rw [queued]
    rcases cases hx with rfl | hx
    · rw [State.taken_record, if_pos (by rw [List.count_cons_self]; omega)]
    · rw [record x (old hx), List.count_cons_of_ne (old hx).symm]
      exact k.state x hx
  · have hx' : x ∉ r :: s.usedRecords := fun e => hx (used.mem_iff.mpr e)
    rw [List.mem_cons, not_or] at hx'
    rw [kept, waits, List.count_cons_of_ne (Ne.symm hx'.1)]
    exact k.unheld x hx'.2

/-- A record in hand that nothing holds may be given back. -/
theorem State.Given.returnRoom (g : s.Given r H F B) (h : s.kept H r = 0) : (s.returnRoom r).Books H F B := by
  obtain ⟨own, alone, F', B', k, rfl, rfl⟩ := g
  obtain ⟨low, notFree⟩ := State.mem_usedRecords.mp own
  have used := State.usedRecords_returned (t := s.returnRoom r) rfl notFree low
  have nodup : (r :: (s.returnRoom r).usedRecords).Nodup := used.nodup_iff.mp s.usedRecords_nodup
  have other : ∀ {x}, x ∈ (s.returnRoom r).usedRecords → x ≠ r := fun hx e => (List.nodup_cons.mp nodup).1 (e ▸ hx)
  have old : ∀ {x}, x ∈ (s.returnRoom r).usedRecords → x ∈ s.usedRecords := fun hx => used.mem_iff.mpr (List.mem_cons_of_mem _ hx)
  have placed := k.placed r own
  rw [h, if_pos rfl] at placed
  unfold State.waits at placed
  have kept : ∀ x, (s.returnRoom r).kept H x = s.kept H x := fun _ => rfl
  have queued : ∀ x, (s.returnRoom r).isQueued x = s.isQueued x := fun _ => rfl
  have filled : ∀ {x}, x ≠ r → (F'.erase r).count x = F'.count x := fun hx => List.count_erase_of_ne hx
  have waits : ∀ {x}, x ≠ r → (s.returnRoom r).waits (B'.erase r) x = s.waits B' x := fun hx =>
    congrArg (s.backlogged.count _ + ·) (List.count_erase_of_ne hx)
  refine ⟨State.pagesBalanced_returnRoom low notFree k.pages, ⟨?_, ?_⟩, fun y => ?_, fun x hx => k.size x (old hx), fun x hx => ?_,
    fun x hx => ?_, fun x hx => ?_, fun x hx => ?_, k.single⟩
  · exact List.nodup_append.mpr ⟨k.free.1, List.nodup_singleton r, fun x hx y hy => by
      rw [List.mem_singleton.mp hy]
      exact fun e => notFree (e ▸ hx)⟩
  · intro x hx
    rcases List.mem_append.mp hx with hx | hx
    · exact k.free.2 x hx
    · rw [List.mem_singleton.mp hx]
      exact low
  · have sum := ((used.filter (fun x => (s.record x).source = y)).map (fun x => (s.record x).pages.length)).sum_eq
    rw [← k.held y, List.filter_cons] at sum
    show (s.store.held.on (· - (s.record r).pages.length) (s.record r).source).get y = _
    rw [Held.get_on, sum]
    by_cases hy : (s.record r).source = y
    · rw [if_pos hy, if_pos (by simpa using hy), List.map_cons, List.sum_cons, Nat.add_sub_cancel_left]
      rfl
    · rw [if_neg hy, if_neg (by simpa using hy)]
      rfl
  · rw [kept]
    exact k.refs x (old hx)
  · rw [filled (other hx), waits (other hx), kept]
    exact k.placed x (old hx)
  · rw [filled (other hx), queued]
    exact k.state x (old hx)
  · rw [kept]
    by_cases hr : x = r
    · subst hr
      refine ⟨h, ?_, ?_⟩
      · rw [List.count_erase_self]
        omega
      · show s.backlogged.count x + (B'.erase x).count x = 0
        rw [List.count_erase_self]
        omega
    · rw [filled hr, waits hr]
      exact k.unheld x fun e => (List.mem_cons.mp (used.mem_iff.mp e)).elim hr hx

end Sys2Proof.Machine

end

section
/-! Placements, events, notices, releases and dropped references keep the books. -/

namespace Sys2Proof.Machine

variable {s t u : State} {H H' F F' B B' : List Nat} {r : Nat} {q : Port}

theorem zero_not_ne : ¬ (0 : Nat) ≠ 0 := fun h => h rfl

/-! ### Operations apart from the books -/

/-- A calm operation that changes of the store no more than the pages' bytes and the watermark, and no queue. -/
theorem State.Apart.of_calm (c : Calm s t) (hs : ∃ m w, t.store = { s.store with mem := m, watermark := w })
    (hq : ∀ q, t.queues q = s.queues q) : s.Apart t := by
  obtain ⟨m, w, hs⟩ := hs
  have backlogged : t.backlogged = s.backlogged := by
    unfold State.backlogged
    rw [c.steer]
  exact ⟨by rw [hs], by rw [hs], by rw [hs], by rw [hs], hq, backlogged, c.requests, c.enums, c.cache⟩

theorem State.apart_append (s : State) (k : EventKind) (p : Option Port) (d : Option Half) : s.Apart (s.append k p d) := by
  rw [State.append_rest]
  exact ⟨rfl, rfl, rfl, rfl, fun q => by cases q <;> rfl, rfl, rfl, rfl, rfl⟩

theorem State.apart_setWatermark (s : State) (w : Watermark) : s.Apart (s.setWatermark w) :=
  ⟨rfl, rfl, rfl, rfl, fun q => by cases q <;> rfl, rfl, rfl, rfl, rfl⟩

theorem State.apart_setIngress (s : State) (x : Ingress) : s.Apart (s.setIngress x) :=
  ⟨rfl, rfl, rfl, rfl, fun q => by cases q <;> rfl, rfl, rfl, rfl, rfl⟩

theorem State.apart_setNotice (s : State) : s.Apart s.setNotice :=
  ⟨rfl, rfl, rfl, rfl, fun q => by cases q <;> rfl, rfl, rfl, rfl, rfl⟩

theorem State.apart_announce (s : State) : s.Apart s.announce := by
  rcases s.announce_cases with h | ⟨x, h⟩ <;> rw [h]
  · exact .refl s
  · exact s.apart_setIngress x

theorem State.apart_examineQuietly (s : State) : s.Apart s.examineQuietly := by
  unfold State.examineQuietly
  split
  · split
    · exact (s.apart_setWatermark .low).trans (State.apart_append _ _ _ _)
    · exact .refl s
  · split
    · exact s.apart_setWatermark .armed
    · exact .refl s

theorem State.apart_writeFrameByte (s : State) (r i : Nat) (b : Byte) : s.Apart (s.writeFrameByte r i b) := by
  unfold State.writeFrameByte
  split
  · split
    · exact ⟨rfl, rfl, rfl, rfl, fun q => by cases q <;> rfl, rfl, rfl, rfl, rfl⟩
    · exact .refl s
  · exact .refl s

theorem State.apart_fill (r : Nat) (l : List Byte) : ∀ (s : State) (i : Nat), s.Apart (s.fill r i l) := by
  induction l with
  | nil => exact fun s _ => .refl s
  | cons b l ih => exact fun s i => (s.apart_writeFrameByte r i b).trans (ih _ (i + 1))

theorem State.apart_raiseTrunk (s : State) (p : TrunkPort) (k : TrunkStat) : s.Apart (s.raiseTrunk p k) := by
  cases p <;> exact ⟨rfl, rfl, rfl, rfl, fun q => by cases q <;> rfl, rfl, rfl, rfl, rfl⟩

theorem State.apart_raiseLocal (s : State) (k : LocalStat) : s.Apart (s.raiseLocal k) :=
  ⟨rfl, rfl, rfl, rfl, fun q => by cases q <;> rfl, rfl, rfl, rfl, rfl⟩

theorem State.apart_raiseSkip (s : State) (q : Port) : s.Apart (s.raiseSkip q) := by
  cases q
  · exact s.apart_raiseTrunk .a _
  · exact s.apart_raiseTrunk .b _
  · exact s.apart_raiseLocal _

/-! ### Records in hand -/

theorem State.Given.refs (g : s.Given r H F B) : (s.record r).refs = s.kept H r := by
  obtain ⟨own, -, F', B', k, -, -⟩ := g
  exact k.refs r own

/-- A record that something holds is in no hand any more. -/
theorem State.Given.held (g : s.Given r H F B) (h : s.kept H r ≠ 0) : s.Books H F B := by
  obtain ⟨-, -, F', B', k, rfl, rfl⟩ := g
  obtain ⟨hf, -, hb⟩ := k.lists_of_held h
  rw [List.erase_of_not_mem (List.count_eq_zero.mp hf), List.erase_of_not_mem (List.count_eq_zero.mp hb)]
  exact k

theorem State.Apart.given (h : s.Apart t) (g : s.Given r H F B) : t.Given r H F B := by
  obtain ⟨own, alone, F', B', k, hF, hB⟩ := g
  exact ⟨by rw [State.usedRecords_congr h.freeRecs]; exact own, by rw [h.backlogged]; exact alone, F', B', h.books k, hF, hB⟩

/-- The record in hand comes to be held. -/
theorem State.Given.moved (g : s.Given r H F B) (m : State.Rebooked r s t)
    (kept : ∀ x, x ≠ r → t.kept H' x = s.kept H x) (entered : ∀ x, x ≠ r → t.entered x = s.entered x)
    (backlogged : t.backlogged = s.backlogged) (refs : (t.record r).refs = t.kept H' r) (held : t.kept H' r ≠ 0)
    (state : (t.record r).state = if t.isQueued r then .queued else .waiting)
    (single : ∀ q : Port, (t.queues q).frames.Nodup) : t.Books H' F B := by
  obtain ⟨own, alone, F', B', k, rfl, rfl⟩ := g
  have placed := k.placed r own
  unfold State.waits at placed
  have unfilled : (F'.erase r).count r = 0 := by
    rw [List.count_erase_self]
    omega
  have unwaited : t.waits (B'.erase r) r = 0 := by
    unfold State.waits
    rw [List.count_erase_self, backlogged, alone]
    omega
  refine k.moved m own kept entered (fun x hx => List.count_erase_of_ne hx) (fun x hx => ?_) refs ?_ ?_ single
  · unfold State.waits
    rw [backlogged, List.count_erase_of_ne hx]
  · rw [unfilled, unwaited, if_neg held]
  · rw [unfilled, if_neg zero_not_ne]
    exact state

/-! ### Placements -/

theorem State.entered_enqueue (s : State) (q : Port) (c : TrafficClass) (r x : Nat) :
    (s.enqueue q c r).entered x = s.entered x + if x = r then 1 else 0 := by
  unfold State.entered
  rw [State.queues_enqueue, State.queues_enqueue, State.queues_enqueue]
  cases q <;> simp only [reduceCtorEq, if_true, if_false, QueueSet.count_frames_push] <;> omega

theorem State.kept_enqueue (s : State) (q : Port) (c : TrafficClass) (r x : Nat) (H : List Nat) :
    (s.enqueue q c r).kept H x = s.kept H x + if x = r then 1 else 0 := by
  have aside : (s.enqueue q c r).heldAside x = s.heldAside x := by
    rw [State.enqueue_frame]
    rfl
  unfold State.kept
  rw [State.entered_enqueue, aside]
  omega

theorem State.rebooked_enqueue (s : State) (q : Port) (c : TrafficClass) (r : Nat) : State.Rebooked r s (s.enqueue q c r) where
  freePages := by rw [State.enqueue_frame]
  freeRecs := by rw [State.enqueue_frame]
  held := by rw [State.enqueue_frame]
  own := by rw [State.record_enqueue_same]
  other x hx := State.record_enqueue hx s q c

/-- A record in hand that a port does not hold joins one of its queues. -/
theorem State.Given.enqueue (g : s.Given r H F B) (c : TrafficClass) (free : (s.queues q).frames.count r = 0) :
    (s.enqueue q c r).Books H F B := by
  refine g.moved (s.rebooked_enqueue q c r) (fun x hx => ?_) (fun x hx => ?_) ?_ ?_ ?_ ?_ (fun y => ?_)
  · rw [State.kept_enqueue, if_neg hx, Nat.add_zero]
  · rw [State.entered_enqueue, if_neg hx, Nat.add_zero]
  · rw [State.enqueue_frame]
    rfl
  · rw [State.record_enqueue_same, State.kept_enqueue, if_pos rfl, ← g.refs]
  · rw [State.kept_enqueue, if_pos rfl]
    omega
  · rw [State.record_enqueue_same, State.isQueued_enqueue]
    rfl
  · obtain ⟨-, -, F', B', k, -, -⟩ := g
    rw [State.queues_enqueue]
    split
    · rw [List.nodup_iff_count_le_one]
      intro x
      rw [QueueSet.count_frames_push]
      have one := List.nodup_iff_count_le_one.mp (k.single q) x
      split
      · next hx => rw [hx, free]
      · exact one
    · exact k.single y

theorem State.Given.place (g : s.Given r H F B) (c : TrafficClass) (free : (s.queues q).frames.count r = 0) :
    (s.place q c r).Given r H F B := by
  cases hc : s.canPlace q c with
  | true =>
    rw [State.place_taken hc]
    exact (g.enqueue c free).given_held (by rw [State.kept_enqueue, if_pos rfl]; omega)
  | false =>
    rw [State.place_skipped hc]
    exact (s.apart_raiseSkip q).given g

theorem State.frames_of_entered (h : s.entered r = 0) (q : Port) : (s.queues q).frames.count r = 0 := by
  unfold State.entered at h
  cases q <;> omega

theorem State.entered_of_kept (h : s.kept H r = 0) : s.entered r = 0 := by
  unfold State.kept at h
  omega

theorem State.Given.placeByDest (g : s.Given r H F B) (d : Station) (h : s.kept H r = 0) : (s.placeByDest d r).Given r H F B := by
  unfold State.placeByDest
  split
  · exact g.place 0 (State.frames_of_entered (State.entered_of_kept h) _)
  · exact g

/-- A record being filled is not held. -/
theorem State.Books.kept_filling (k : s.Books H (r :: F) B) : s.kept H r = 0 := by
  have placed := k.placed r (k.used (.inr (.inl (by rw [List.count_cons_self]; omega))))
  rw [List.count_cons_self] at placed
  by_contra h
  rw [if_neg h] at placed
  omega

/-! ### Events and notices -/

theorem State.Given.releaseSkippedNotice (g : s.Given r H F B) : (s.releaseSkippedNotice r).Books H F B := by
  unfold State.releaseSkippedNotice
  split
  · next h =>
    exact (State.apart_announce _).books ((State.apart_examineQuietly _).books (g.returnRoom (by rw [← g.refs, h])))
  · next h => exact g.held (by rw [← g.refs]; exact h)

theorem State.Books.sendNotice (k : s.Books H F B) (e : EventRecord) : (s.sendNotice e).Books H F B := by
  unfold State.sendNotice
  split
  · exact k
  · next r v hv =>
    have taken := k.takeRoom hv
    have apart := v.apart_examineQuietly.trans (State.apart_fill r (s.noticeBytes e) _ 0)
    generalize v.examineQuietly.fill r 0 (s.noticeBytes e) = z at apart
    have given := (apart.books taken).given_filling.placeByDest (s.params.monitorStation.getD 255)
        (apart.books taken).kept_filling
    exact (State.apart_setNotice _).books (State.Given.releaseSkippedNotice given)

theorem State.Books.raiseEvent (k : s.Books H F B) (x : EventKind) (p : Option Port) (d : Option Half) :
    (s.raiseEvent x p d).Books H F B := by
  have appended := (s.apart_append x p d).books k
  unfold State.raiseEvent
  dsimp only
  split
  · exact appended.sendNotice _
  · exact appended

theorem State.Books.examine (k : s.Books H F B) : s.examine.Books H F B := by
  unfold State.examine
  split
  · split
    · exact ((s.apart_setWatermark .low).books k).raiseEvent _ _ _
    · exact k
  · split
    · exact (s.apart_setWatermark .armed).books k
    · exact k

theorem State.Books.askRoom {src : Source} {len : Nat} (k : s.Books H F B) (h : s.askRoom src len = .granted r t) :
    t.Books H (r :: F) B := by
  unfold State.askRoom at h
  split at h
  · next v hv =>
    cases h
    exact (k.takeRoom hv).examine
  · cases h

/-! ### Releases and references -/

/-- A record in hand that nothing holds, released (R38). -/
theorem State.Given.release (g : s.Given r H F B) (h : s.kept H r = 0) : (s.release r).Books H F B :=
  (State.apart_announce _).books (g.returnRoom h).examine

theorem State.Books.release_filling (k : s.Books H (r :: F) B) : (s.release r).Books H F B :=
  k.given_filling.release k.kept_filling

theorem State.Books.release_waiting (k : s.Books H F (r :: B)) : (s.release r).Books H F B := by
  refine k.given_waiting.release ?_
  have placed := k.placed r (k.used (.inr (.inr (by unfold State.waits; rw [List.count_cons_self]; omega))))
  unfold State.waits at placed
  rw [List.count_cons_self] at placed
  by_contra h
  rw [if_neg h] at placed
  omega

theorem State.Books.abandon {o : Option Nat} (k : s.Books H (o.toList ++ F) B) : (s.abandon o).Books H F B := by
  cases o with
  | none => exact k
  | some r => exact k.release_filling

theorem State.Given.releaseUnheld (g : s.Given r H F B) : (s.releaseUnheld r).Books H F B := by
  unfold State.releaseUnheld
  split
  · next h => exact g.release (by rw [← g.refs, h])
  · next h => exact g.held (by rw [← g.refs]; exact h)

/-- A state with one reference of a record gone, whose record still counts it, once that reference is dropped (R29). -/
theorem State.Books.lowered (k : s.Books H F B) (hs : u.store = s.store)
    (kept : ∀ x, u.kept H' x + (if x = r then 1 else 0) = s.kept H x) (entered : ∀ x, x ≠ r → u.entered x = s.entered x)
    (backlogged : u.backlogged = s.backlogged) (single : ∀ q : Port, (u.queues q).frames.Nodup) : (u.dropRef r).Books H' F B := by
  have one := kept r
  rw [if_pos rfl] at one
  have held : s.kept H r ≠ 0 := by omega
  have own := k.used (.inl held)
  obtain ⟨unfilled, unwaited, -⟩ := k.lists_of_held held
  have record : u.record r = s.record r := by unfold State.record; rw [hs]
  have refs : (u.record r).refs = u.kept H' r + 1 := by rw [record, k.refs r own, one]
  have notFilling : ((u.record r).state != .filling) = true := by
    rw [record, k.state r own, unfilled, if_neg zero_not_ne]
    split <;> rfl
  have notWaiting : (!u.onBacklog r) = true := by
    rw [Bool.not_eq_true', ← Bool.not_eq_true]
    intro h
    have : r ∈ u.backlogged := by
      simp only [State.onBacklog, Bool.or_eq_true, List.contains_iff_mem] at h
      simp only [State.backlogged, List.mem_append]
      exact h
    rw [backlogged] at this
    exact List.count_eq_zero.mp unwaited this
  have booked : ∀ n x, State.Rebooked r s (u.setRecord r { u.record r with refs := n, state := x }) := fun n x => by
    refine ⟨by rw [← hs]; rfl, by rw [← hs]; rfl, by rw [← hs]; rfl, ?_, fun y hy => ?_⟩
    · rw [State.record_setRecord_same, record]
    · rw [State.record_setRecord, if_neg hy]
      unfold State.record
      rw [hs]
  have after : ∀ C, (r ∈ s.usedRecords → s.backlogged.count r + List.count r C + (if u.kept H' r = 0 then 0 else 1) = 1) →
      (∀ x, x ≠ r → List.count x C = B.count x) →
      (u.setRecord r { u.record r with
        refs := u.kept H' r, state := if u.isQueued r then .queued else .waiting }).Books H' F C := by
    intro C placed others
    refine k.moved (booked _ _) own (fun x hx => ?_) entered (fun _ _ => rfl) (fun x hx => ?_) ?_ ?_ ?_ single
    · have := kept x
      rw [if_neg hx] at this
      exact this
    · show u.backlogged.count x + C.count x = s.backlogged.count x + B.count x
      rw [backlogged, others x hx]
    · rw [State.record_setRecord_same]
      rfl
    · show F.count r + (u.backlogged.count r + C.count r) + (if u.kept H' r = 0 then 0 else 1) = 1
      rw [unfilled, backlogged, Nat.zero_add]
      exact placed own
    · rw [State.record_setRecord_same, unfilled, if_neg zero_not_ne, State.isQueued_setRecord]
  obtain ⟨-, -, unlisted⟩ := k.lists_of_held held
  unfold State.dropRef
  split
  · next h =>
    rw [h] at refs
    omega
  · next n h =>
    rw [h] at refs
    obtain rfl : n = u.kept H' r := by omega
    dsimp only
    rw [notFilling, notWaiting, Bool.and_true, Bool.and_true]
    by_cases hn : u.kept H' r = 0
    · rw [if_pos (by simpa using hn)]
      refine (after (r :: B) (fun _ => ?_) (fun x hx => List.count_cons_of_ne (Ne.symm hx))).release_waiting
      rw [List.count_cons_self, unwaited, unlisted, if_pos hn]
    · rw [if_neg (by simpa using hn)]
      refine after B (fun _ => ?_) (fun _ _ => rfl)
      rw [unwaited, unlisted, if_neg hn]

/-- A reference in hand dropped (R29). -/
theorem State.Books.dropRef (k : s.Books (r :: H) F B) : (s.dropRef r).Books H F B := by
  refine k.lowered rfl (fun x => ?_) (fun _ _ => rfl) rfl k.single
  unfold State.kept
  rw [count_cons_if]
  omega

end Sys2Proof.Machine

end

section
/-! What holds between two operations: the books, and every frame in flight or in transfer among its port's entries. -/

namespace Sys2Proof.Machine

variable {s t u : State} {H H' F F' B B' : List Nat} {r : Nat} {q : Port}

/-! ### Entries that stay -/

/-- Every entry of every port stays. -/
def State.EntriesStay (s t : State) : Prop := ∀ q e, e ∈ (s.queues q).entries → e ∈ (t.queues q).entries

theorem State.EntriesStay.refl (s : State) : s.EntriesStay s := fun _ _ h => h

theorem State.EntriesStay.trans (h : s.EntriesStay t) (g : t.EntriesStay u) : s.EntriesStay u := fun q e he => g q e (h q e he)

theorem State.Apart.entriesStay (h : s.Apart t) : s.EntriesStay t := fun q e he => by rw [h.queues]; exact he

theorem State.entriesStay_of_queues (h : ∀ q, t.queues q = s.queues q) : s.EntriesStay t := fun q e he => by rw [h]; exact he

theorem State.entriesStay_enqueue (s : State) (q : Port) (c : TrafficClass) (r : Nat) :
    s.EntriesStay (s.enqueue q c r) := fun y e he => by
  rw [State.queues_enqueue]
  split
  · next h =>
    rw [h] at he
    exact QueueSet.mem_entries_push he
  · exact he

theorem State.entriesStay_place (s : State) (q : Port) (c : TrafficClass) (r : Nat) : s.EntriesStay (s.place q c r) := by
  cases hc : s.canPlace q c with
  | true =>
    rw [State.place_taken hc]
    exact s.entriesStay_enqueue q c r
  | false =>
    rw [State.place_skipped hc]
    exact (s.apart_raiseSkip q).entriesStay

theorem State.entriesStay_placeByDest (s : State) (d : Station) (r : Nat) : s.EntriesStay (s.placeByDest d r) := by
  unfold State.placeByDest
  split
  · exact s.entriesStay_place _ 0 r
  · exact .refl s

theorem State.entriesStay_returnRoom (s : State) (r : Nat) :
    s.EntriesStay (s.returnRoom r) := State.entriesStay_of_queues fun y => by cases y <;> rfl

theorem State.entriesStay_setRecord (s : State) (r : Nat) (f : FrameRecord) : s.EntriesStay (s.setRecord r f) :=
  State.entriesStay_of_queues fun y => by cases y <;> rfl

theorem State.entriesStay_releaseSkippedNotice (s : State) (r : Nat) : s.EntriesStay (s.releaseSkippedNotice r) := by
  unfold State.releaseSkippedNotice
  split
  · exact ((s.entriesStay_returnRoom r).trans (State.apart_examineQuietly _).entriesStay).trans
      (State.apart_announce _).entriesStay
  · exact .refl s

theorem State.entriesStay_takeRoom {src : Source} {len : Nat} (h : s.takeRoom src len = some (r, t)) : s.EntriesStay t := by
  obtain ⟨rest, -, rfl, -⟩ := State.takeRoom_cases h
  exact State.entriesStay_of_queues fun y => by cases y <;> rfl

theorem State.entriesStay_sendNotice (s : State) (e : EventRecord) : s.EntriesStay (s.sendNotice e) := by
  unfold State.sendNotice
  split
  · exact .refl s
  · next r v hv =>
    have filled := v.apart_examineQuietly.trans (State.apart_fill r (s.noticeBytes e) _ 0)
    have entriesStay := (State.entriesStay_takeRoom hv).trans filled.entriesStay
    generalize v.examineQuietly.fill r 0 (s.noticeBytes e) = z at entriesStay
    exact ((entriesStay.trans (z.entriesStay_placeByDest _ r)).trans (State.entriesStay_releaseSkippedNotice _ r)).trans
        (State.apart_setNotice _).entriesStay

theorem State.entriesStay_raiseEvent (s : State) (k : EventKind) (p : Option Port) (d : Option Half) :
    s.EntriesStay (s.raiseEvent k p d) := by
  have appended := (s.apart_append k p d).entriesStay
  unfold State.raiseEvent
  dsimp only
  split
  · exact appended.trans (State.entriesStay_sendNotice _ _)
  · exact appended

theorem State.entriesStay_examine (s : State) : s.EntriesStay s.examine := by
  unfold State.examine
  split
  · split
    · exact (s.apart_setWatermark .low).entriesStay.trans (State.entriesStay_raiseEvent _ .storeLow none none)
    · exact .refl s
  · split
    · exact (s.apart_setWatermark .armed).entriesStay
    · exact .refl s

theorem State.entriesStay_release (s : State) (r : Nat) : s.EntriesStay (s.release r) :=
  ((s.entriesStay_returnRoom r).trans (State.entriesStay_examine _)).trans (State.apart_announce _).entriesStay

theorem State.entriesStay_dropRef (s : State) (r : Nat) : s.EntriesStay (s.dropRef r) := by
  unfold State.dropRef
  split
  · exact .refl s
  · dsimp only
    split
    · exact (s.entriesStay_setRecord r _).trans (State.entriesStay_release _ r)
    · exact s.entriesStay_setRecord r _

/-- An operation of the store, of the event queue or of an egress queue under which every entry stays. -/
structure State.Flows (s t : State) : Prop where
  calm : Calm s t
  told : s.Told t
  entriesStay : s.EntriesStay t

theorem State.Flows.refl (s : State) : s.Flows s := ⟨.refl s, .refl s, .refl s⟩

theorem State.Flows.trans (h : s.Flows t) (g : t.Flows u) : s.Flows u :=
  ⟨h.calm.trans g.calm, h.told.trans g.told, h.entriesStay.trans g.entriesStay⟩

theorem State.filling_of_calm (c : Calm s t) (h : s.Told t) : t.filling = s.filling := by
  unfold State.filling
  rw [h.record?, show t.trunkA.rx = s.trunkA.rx from c.rx .a, show t.trunkB.rx = s.trunkB.rx from c.rx .b]

theorem State.Flows.filling (h : s.Flows t) : t.filling = s.filling := State.filling_of_calm h.calm h.told

theorem State.InPlace.of_entriesStay (h : s.InPlace) (g : s.EntriesStay t) (tx : ∀ p, (t.tx p).inFlight = (s.tx p).inFlight)
    (egress : t.loc.egress = s.loc.egress) : t.InPlace where
  flight p e he := g _ e (h.flight p e (by rw [← tx p]; exact he))
  transfer e k he := g _ e (h.transfer e k (by rw [← egress]; exact he))

theorem State.InPlace.flows (h : s.InPlace) (f : s.Flows t) : t.InPlace :=
  h.of_entriesStay f.entriesStay (fun p => congrArg Transmitter.inFlight (f.calm.tx p)) f.calm.egress

theorem State.flows_raiseTrunk (s : State) (p : TrunkPort) (k : TrunkStat) : s.Flows (s.raiseTrunk p k) :=
  ⟨s.calm_raiseTrunk p k, s.told_raiseTrunk p k, (s.apart_raiseTrunk p k).entriesStay⟩

theorem State.flows_raiseLocal (s : State) (k : LocalStat) : s.Flows (s.raiseLocal k) :=
  ⟨s.calm_raiseLocal k, .inl rfl, (s.apart_raiseLocal k).entriesStay⟩

theorem State.flows_raiseEvent (s : State) (k : EventKind) (p : Option Port) (d : Option Half) : s.Flows (s.raiseEvent k p d) :=
  ⟨s.calm_raiseEvent k p d, s.told_raiseEvent k p d, s.entriesStay_raiseEvent k p d⟩

theorem State.flows_release (s : State) (r : Nat) : s.Flows (s.release r) :=
  ⟨s.calm_release r, s.told_release r, s.entriesStay_release r⟩

theorem State.flows_abandon (s : State) (o : Option Nat) : s.Flows (s.abandon o) := by
  cases o with
  | none => exact .refl s
  | some r => exact s.flows_release r

theorem State.flows_dropRef (s : State) (r : Nat) : s.Flows (s.dropRef r) :=
  ⟨s.calm_dropRef r, s.told_dropRef r, s.entriesStay_dropRef r⟩

theorem State.flows_place (s : State) (q : Port) (c : TrafficClass) (r : Nat) : s.Flows (s.place q c r) :=
  ⟨s.calm_place q c r, s.told_place q c r, s.entriesStay_place q c r⟩

theorem State.flows_placeByDest (s : State) (d : Station) (r : Nat) : s.Flows (s.placeByDest d r) :=
  ⟨s.calm_placeByDest d r, s.told_placeByDest d r, s.entriesStay_placeByDest d r⟩

theorem State.flows_fill (s : State) (r i : Nat) (l : List Byte) : s.Flows (s.fill r i l) :=
  ⟨s.calm_fill r l i, s.told_fill r i l, (State.apart_fill r l s i).entriesStay⟩

theorem State.flows_askRoom {src : Source} {len : Nat} (h : s.askRoom src len = .granted r t) : s.Flows t := by
  refine ⟨s.calm_askRoom h, ?_, ?_⟩ <;> unfold State.askRoom at h <;> split at h
  · next v hv =>
    cases h
    exact (State.told_takeRoom hv).trans (State.told_examine _)
  · cases h
  · next v hv =>
    cases h
    exact (State.entriesStay_takeRoom hv).trans (State.entriesStay_examine _)
  · cases h

theorem State.flows_releaseUnheld (s : State) (r : Nat) : s.Flows (s.releaseUnheld r) := by
  unfold State.releaseUnheld
  split
  · exact s.flows_release r
  · exact .refl s

/-! ### The books with the blocks' own records -/

/-- The node's books with references `H` and frames `F`, to be filled or being filled, and `B`, to be steered, in hand; and every
frame in flight or in transfer in its place. -/
structure State.Order (s : State) (H F B : List Nat) : Prop where
  books : s.Books H (F ++ s.filling) B
  inPlace : s.InPlace

theorem State.storeSound_iff_order (s : State) : s.StoreSound ↔ s.Order [] [] [] :=
  s.storeSound_iff.trans ⟨fun ⟨k, h⟩ => ⟨k, h⟩, fun o => ⟨o.books, o.inPlace⟩⟩

theorem State.Order.flows (o : s.Order H F B) (f : s.Flows t) (k : t.Books H' (F' ++ s.filling) B') : t.Order H' F' B' :=
  ⟨by rw [f.filling]; exact k, o.inPlace.flows f⟩

theorem State.Order.raiseTrunk (o : s.Order H F B) (p : TrunkPort) (k : TrunkStat) : (s.raiseTrunk p k).Order H F B :=
  o.flows (s.flows_raiseTrunk p k) ((s.apart_raiseTrunk p k).books o.books)

theorem State.Order.raiseLocal (o : s.Order H F B) (k : LocalStat) : (s.raiseLocal k).Order H F B :=
  o.flows (s.flows_raiseLocal k) ((s.apart_raiseLocal k).books o.books)

theorem State.Order.raiseEvent (o : s.Order H F B) (k : EventKind) (p : Option Port) (d : Option Half) :
    (s.raiseEvent k p d).Order H F B :=
  o.flows (s.flows_raiseEvent k p d) (o.books.raiseEvent k p d)

theorem State.Order.abandon {x : Option Nat} (o : s.Order H (x.toList ++ F) B) : (s.abandon x).Order H F B :=
  o.flows (s.flows_abandon x) (State.Books.abandon (by rw [← List.append_assoc]; exact o.books))

theorem State.Order.release_waiting (o : s.Order H F (r :: B)) : (s.release r).Order H F B :=
  o.flows (s.flows_release r) o.books.release_waiting

theorem State.Order.dropRef (o : s.Order (r :: H) F B) : (s.dropRef r).Order H F B :=
  o.flows (s.flows_dropRef r) o.books.dropRef

/-- An operation apart from the books that leaves receptions, frames in flight and transfers as they are. -/
theorem State.Order.apart (o : s.Order H F B) (h : s.Apart t) (filling : t.filling = s.filling)
    (tx : ∀ p, (t.tx p).inFlight = (s.tx p).inFlight) (egress : t.loc.egress = s.loc.egress) : t.Order H F B :=
  ⟨by rw [filling]; exact h.books o.books, o.inPlace.of_entriesStay h.entriesStay tx egress⟩

theorem State.Order.onLink (o : s.Order H F B) (p : TrunkPort) (f : Link → Link) : (s.onLink p f).Order H F B := by
  cases p <;> exact o.apart ⟨rfl, rfl, rfl, rfl, fun q => by cases q <;> rfl, rfl, rfl, rfl, rfl⟩ rfl
    (fun p => by cases p <;> rfl) rfl

theorem State.Order.chosen (o : s.Order H F B) : s.chosen.Order H F B :=
  o.apart ⟨rfl, rfl, rfl, rfl, fun q => by cases q <;> rfl, rfl, rfl, rfl, rfl⟩ rfl (fun p => by cases p <;> rfl) rfl

theorem State.tx_onTx_other (s : State) {p y : TrunkPort} (h : y ≠ p) (f : Transmitter → Transmitter) :
    (s.onTx p f).tx y = s.tx y := by
  cases p <;> cases y
  · exact absurd rfl h
  · rfl
  · rfl
  · exact absurd rfl h

theorem State.apart_onTx (s : State) (p : TrunkPort) (f : Transmitter → Transmitter) : s.Apart (s.onTx p f) := by
  cases p <;> exact ⟨rfl, rfl, rfl, rfl, fun q => by cases q <;> rfl, rfl, rfl, rfl, rfl⟩

/-- A transmitter that keeps its frame in flight. -/
theorem State.Order.onTx (o : s.Order H F B) (p : TrunkPort) (f : Transmitter → Transmitter)
    (hf : (f (s.tx p)).inFlight = (s.tx p).inFlight) : (s.onTx p f).Order H F B := by
  refine o.apart (s.apart_onTx p f) (by cases p <;> rfl) (fun y => ?_) (by cases p <;> rfl)
  by_cases h : y = p
  · rw [h, State.tx_onTx, hf]
  · rw [State.tx_onTx_other s h]

end Sys2Proof.Machine

end

section
/-! Entries leaving a port's queues, and the transmitters' work, keep the books. -/

namespace Sys2Proof.Machine

variable {s t u : State} {H F B : List Nat} {r : Nat} {q : Port} {p : TrunkPort}

/-! ### Entries that leave (R65) -/

theorem State.entered_setQueues_without {e : Entry} (h : e ∈ (s.queues q).entries) (x : Nat) :
    (s.setQueues q ((s.queues q).without e)).entered x + (if x = e.frame then 1 else 0) = s.entered x := by
  have gone := QueueSet.count_frames_without h x
  unfold State.entered
  rw [State.queues_setQueues, State.queues_setQueues, State.queues_setQueues]
  cases q <;> simp only [reduceCtorEq, if_true, if_false] <;> omega

/-- An entry that leaves takes the reference it held with it. -/
theorem State.Books.removeEntry {e : Entry} (k : s.Books H F B) (h : e ∈ (s.queues q).entries) :
    (s.removeEntry q e).Books H F B := by
  have queues : ∀ y, ((s.setQueues q ((s.queues q).without e)).unwatch q e.frame).queues y =
      (s.setQueues q ((s.queues q).without e)).queues y := fun y => by
    rw [State.unwatch_eq]
    cases y <;> rfl
  have entered := State.entered_congr queues
  have gone := State.entered_setQueues_without h
  have aside : ∀ x, ((s.setQueues q ((s.queues q).without e)).unwatch q e.frame).heldAside x = s.heldAside x := fun x => by
    have calm := (s.calm_setQueues q ((s.queues q).without e)).trans (State.calm_unwatch _ q e.frame)
    unfold State.heldAside
    rw [calm.requests, calm.enums, calm.cache]
  refine k.lowered (u := (s.setQueues q ((s.queues q).without e)).unwatch q e.frame) ?_ (fun x => ?_) (fun x hx => ?_) ?_
    (fun y => ?_)
  · rw [State.unwatch_store, State.setQueues_store]
  · have := gone x
    unfold State.kept
    rw [entered, aside]
    omega
  · have := gone x
    rw [if_neg hx] at this
    rw [entered]
    exact this
  · rw [State.unwatch_eq]
    cases q <;> rfl
  · rw [queues, State.queues_setQueues]
    split
    · rw [List.nodup_iff_count_le_one]
      intro x
      have := QueueSet.count_frames_without h x
      have one := List.nodup_iff_count_le_one.mp (k.single q) x
      omega
    · exact k.single y

/-- Every other entry stays. -/
theorem State.mem_removeEntry {e d : Entry} {y : Port} (h : d ∈ (s.queues y).entries) (hd : y = q → d ≠ e) :
    d ∈ ((s.removeEntry q e).queues y).entries := by
  refine State.entriesStay_dropRef _ e.frame y d ?_
  have queues : ((s.setQueues q ((s.queues q).without e)).unwatch q e.frame).queues y =
      (s.setQueues q ((s.queues q).without e)).queues y := by
    rw [State.unwatch_eq]
    cases y <;> rfl
  change d ∈ (((s.setQueues q ((s.queues q).without e)).unwatch q e.frame).queues y).entries
  rw [queues, State.queues_setQueues]
  split
  · next hy =>
    subst hy
    exact QueueSet.mem_entries_without_of_ne h (hd rfl)
  · exact h

theorem QueueSet.entries_nodup {x : QueueSet} (h : x.frames.Nodup) : x.entries.Nodup := List.Nodup.of_map _ h

/-- Entries of one port leave one after the other. -/
theorem State.Books.foldl_removeEntry (l : List Entry) : ∀ {s : State}, s.Books H F B → l.Nodup →
    (∀ e ∈ l, e ∈ (s.queues q).entries) → (l.foldl (fun t e => t.removeEntry q e) s).Books H F B := by
  induction l with
  | nil => exact fun k _ _ => k
  | cons e l ih =>
    intro s k nodup mem
    rw [List.nodup_cons] at nodup
    refine ih (k.removeEntry (mem e (List.mem_cons_self ..))) nodup.2 fun d hd => ?_
    exact State.mem_removeEntry (mem d (List.mem_cons_of_mem _ hd)) fun _ he => nodup.1 (he ▸ hd)

theorem State.Books.removeEntries (k : s.Books H F B) (f : Entry → Bool) : (s.removeEntries q f).Books H F B :=
  k.foldl_removeEntry _ ((QueueSet.entries_nodup (k.single q)).filter _) fun _ he => (List.mem_filter.mp he).1

theorem State.mem_foldl_removeEntry {d : Entry} {y : Port} (l : List Entry) : ∀ {s : State}, d ∈ (s.queues y).entries →
    (y = q → d ∉ l) → d ∈ ((l.foldl (fun t e => t.removeEntry q e) s).queues y).entries := by
  induction l with
  | nil => exact fun h _ => h
  | cons e l ih =>
    intro s h hd
    refine ih (State.mem_removeEntry h fun hy he => hd hy (he ▸ List.mem_cons_self ..)) fun hy hl => ?_
    exact hd hy (List.mem_cons_of_mem _ hl)

/-- An entry that is not selected stays. -/
theorem State.mem_removeEntries {d : Entry} {y : Port} {f : Entry → Bool} (h : d ∈ (s.queues y).entries)
    (hd : y = q → f d = false) : d ∈ ((s.removeEntries q f).queues y).entries :=
  State.mem_foldl_removeEntry _ h fun hy hl => by
    have := hd hy
    rw [(List.mem_filter.mp hl).2] at this
    cases this

/-- An entry leaves that is neither in flight nor in transfer. -/
theorem State.Order.removeEntry {e : Entry} (o : s.Order H F B) (h : e ∈ (s.queues q).entries)
    (flight : ∀ p, portOf p = q → (s.tx p).inFlight ≠ some e) (transfer : q = .l → ∀ k, s.loc.egress ≠ .transfer e k) :
    (s.removeEntry q e).Order H F B := by
  have calm := s.calm_removeEntry q e
  refine ⟨?_, fun p d hd => ?_, fun d k hd => ?_⟩
  · rw [State.filling_of_calm calm (s.told_removeEntry q e)]
    exact o.books.removeEntry h
  · change ((s.removeEntry q e).trunk p).tx.inFlight = some d at hd
    rw [calm.tx] at hd
    exact State.mem_removeEntry (o.inPlace.flight p d hd) fun hp he => flight p hp (he ▸ hd)
  · rw [calm.egress] at hd
    exact State.mem_removeEntry (o.inPlace.transfer d k hd) fun hl he => transfer hl.symm k (he ▸ hd)

/-- Entries leave of which none is in flight or in transfer. -/
theorem State.Order.removeEntries (o : s.Order H F B) (f : Entry → Bool)
    (flight : ∀ p e, portOf p = q → (s.tx p).inFlight = some e → f e = false)
    (transfer : ∀ e k, q = .l → s.loc.egress = .transfer e k → f e = false) : (s.removeEntries q f).Order H F B := by
  have calm := s.calm_removeEntries q f
  refine ⟨?_, fun p d hd => ?_, fun d k hd => ?_⟩
  · rw [State.filling_of_calm calm (s.told_removeEntries q f)]
    exact o.books.removeEntries f
  · change ((s.removeEntries q f).trunk p).tx.inFlight = some d at hd
    rw [calm.tx] at hd
    exact State.mem_removeEntries (o.inPlace.flight p d hd) fun hp => flight p d hp hd
  · rw [calm.egress] at hd
    exact State.mem_removeEntries (o.inPlace.transfer d k hd) fun hl => transfer d k hl.symm hd

/-! ### The transmitter -/

theorem State.onTx_filling (s : State) (p : TrunkPort) (f : Transmitter → Transmitter) : (s.onTx p f).filling = s.filling := by
  cases p <;> rfl

/-- A transmitter that ends with no frame in flight. -/
theorem State.Order.onTx_none (o : s.Order H F B) (p : TrunkPort) (f : Transmitter → Transmitter)
    (hf : (f (s.tx p)).inFlight = none) : (s.onTx p f).Order H F B := by
  refine ⟨?_, fun y e he => ?_, fun e k he => ?_⟩
  · rw [State.onTx_filling]
    exact (s.apart_onTx p f).books o.books
  · rw [(s.apart_onTx p f).queues]
    by_cases hy : y = p
    · rw [hy, State.tx_onTx, hf] at he
      cases he
    · rw [State.tx_onTx_other s hy] at he
      exact o.inPlace.flight y e he
  · rw [(s.apart_onTx p f).queues]
    exact o.inPlace.transfer e k (by cases p <;> exact he)

/-- The frame in flight leaves its transmitter and its queue. -/
theorem State.Order.leaveFlight (o : s.Order H F B) (p : TrunkPort) : (s.leaveFlight p).Order H F B := by
  unfold State.leaveFlight
  split
  · exact o.onTx_none p _ rfl
  · next e he =>
    refine (o.onTx_none p _ rfl).removeEntry ?_ (fun y hy hf => ?_) (fun hl => ?_)
    · rw [(s.apart_onTx p _).queues]
      exact o.inPlace.flight p e he
    · rw [portOf_injective hy, State.tx_onTx] at hf
      cases hf
    · cases p <;> cases hl

theorem State.Order.startCopy (o : s.Order H F B) (p : TrunkPort) : (s.startCopy p).Order H F B :=
  (o.raiseTrunk p _).onTx p _ rfl

theorem State.Order.retransmit (o : s.Order H F B) (p : TrunkPort) : (s.retransmit p).Order H F B := by
  unfold State.retransmit
  split
  · exact o
  · split
    · exact o.startCopy p
    · exact (o.raiseTrunk p _).leaveFlight p

theorem State.Order.resume (o : s.Order H F B) (p : TrunkPort) : (s.resume p).Order H F B := by
  unfold State.resume
  split
  · exact o.retransmit p
  · exact o

theorem State.Order.suspend (o : s.Order H F B) (p : TrunkPort) : (s.suspend p).Order H F B := by
  unfold State.suspend
  split
  · exact o
  · exact o
  · split
    · exact o.leaveFlight p
    · exact o.onTx p _ rfl
  · exact o.onTx p _ rfl
  · exact o.onTx p _ rfl

/-- Entries of a trunk port leave, the frame in flight among them, and its transmitter with it. -/
theorem State.Order.removeWithFlight (o : s.Order H F B) (p : TrunkPort) (f : Entry → Bool) :
    ((s.removeEntries (portOf p) f).onTx p (fun t => t.advanced.cleared)).Order H F B := by
  have calm := s.calm_removeEntries (portOf p) f
  have apart := (s.removeEntries (portOf p) f).apart_onTx p (fun t => t.advanced.cleared)
  refine ⟨?_, fun y d hd => ?_, fun d k hd => ?_⟩
  · rw [State.onTx_filling, State.filling_of_calm calm (s.told_removeEntries _ f)]
    exact apart.books (o.books.removeEntries f)
  · rw [apart.queues]
    by_cases hy : y = p
    · rw [hy, State.tx_onTx] at hd
      cases hd
    · rw [State.tx_onTx_other _ hy] at hd
      change ((s.removeEntries (portOf p) f).trunk y).tx.inFlight = some d at hd
      rw [calm.tx] at hd
      exact State.mem_removeEntries (o.inPlace.flight y d hd) fun hp => absurd (portOf_injective hp) hy
  · rw [apart.queues]
    have same : ((s.removeEntries (portOf p) f).onTx p (fun t => t.advanced.cleared)).loc.egress = s.loc.egress := by
      rw [← calm.egress]
      cases p <;> rfl
    rw [same] at hd
    exact State.mem_removeEntries (o.inPlace.transfer d k hd) fun hp => by cases p <;> cases hp

theorem State.Order.flushDown (o : s.Order H F B) (p : TrunkPort) : (s.flushDown p).Order H F B := by
  unfold State.flushDown
  split
  · dsimp only
    split
    · next h =>
      refine o.removeEntries _ (fun y e hy he => ?_) fun e k hp => by cases p <;> cases hp
      cases portOf_injective hy
      rw [Bool.or_eq_true, decide_eq_true_eq, he] at h
      rcases h with h | h
      · unfold State.isHeldHead
        rw [h, he]
        simp
      · cases h
    · exact o.removeWithFlight p _
  · exact o

theorem State.Order.exhaust (o : s.Order H F B) (p : TrunkPort) : (s.exhaust p).Order H F B := by
  have raised := o.raiseTrunk p .retryExhaustions
  unfold State.exhaust
  dsimp only
  split
  · exact raised.onTx p _ rfl
  · exact (raised.leaveFlight p).raiseEvent _ _ _
  · exact ((raised.onTx p _ rfl).raiseEvent _ _ _).raiseEvent _ _ _

theorem State.Order.failAttempt (o : s.Order H F B) (p : TrunkPort) : (s.failAttempt p).Order H F B := by
  unfold State.failAttempt
  dsimp only
  split
  · exact o.onTx p _ rfl
  · exact (o.onTx p _ rfl).exhaust p

theorem State.Order.takeAck (o : s.Order H F B) (p : TrunkPort) (n : LinkSeq) : (s.takeAck p n).Order H F B := by
  have stray : (s.stray p).Order H F B := o.raiseTrunk p _
  unfold State.takeAck
  split
  · split
    · split
      · exact o.leaveFlight p
      · exact stray
    · split
      · exact stray
      · exact o.onTx p _ rfl
    · exact o.leaveFlight p
    · exact o.leaveFlight p
    · exact stray
  · exact stray

theorem State.Order.takeNak (o : s.Order H F B) (p : TrunkPort) (n : LinkSeq) (why : NakReason) :
    (s.takeNak p n why).Order H F B := by
  unfold State.takeNak
  split
  · split
    · exact o.failAttempt p
    · exact o.onTx p _ rfl
  · exact o.raiseTrunk p _

theorem QueueSet.mem_of_urgent {x : QueueSet} {e : Entry} (h : x.urgent = some e) : e ∈ x.entries := List.mem_of_head? h

/-- An entry comes to be in flight. -/
theorem State.Order.select (p : TrunkPort) (n : Nat) : ∀ {s : State}, s.Order H F B → (s.tx p).inFlight = none →
    (s.select p n).Order H F B := by
  induction n with
  | zero => exact fun o _ => o
  | succ n ih =>
    intro s o free
    unfold State.select
    have queues : (s.trunk p).queues = s.queues (portOf p) := by cases p <;> rfl
    split
    · exact o
    · next e he =>
      rw [queues] at he
      split
      · refine State.Order.startCopy ?_ p
        have apart := s.apart_onTx p (fun t => { t with inFlight := some e, sent := false, acked := false })
        refine ⟨?_, fun y d hd => ?_, fun d k hd => ?_⟩
        · rw [State.onTx_filling]
          exact apart.books o.books
        · rw [apart.queues]
          by_cases hy : y = p
          · rw [hy, State.tx_onTx] at hd
            cases hd
            rw [hy]
            exact QueueSet.mem_of_urgent he
          · rw [State.tx_onTx_other s hy] at hd
            exact o.inPlace.flight y d hd
        · rw [apart.queues]
          exact o.inPlace.transfer d k (by cases p <;> exact hd)
      · have raised := o.raiseTrunk p .residenceDiscards
        have tx : (s.raiseTrunk p .residenceDiscards).tx p = s.tx p := (s.calm_raiseTrunk p _).tx p
        have removed : ((s.raiseTrunk p .residenceDiscards).removeEntry (portOf p) e).Order H F B := by
          refine raised.removeEntry ?_ (fun y hy hf => ?_) fun hp => by cases p <;> cases hp
          · rw [(s.apart_raiseTrunk p _).queues]
            exact QueueSet.mem_of_urgent he
          · rw [portOf_injective hy, tx, free] at hf
            cases hf
        dsimp only
        split
        · exact removed
        · refine ih removed ?_
          rw [← free, ← tx]
          exact congrArg Transmitter.inFlight ((State.calm_removeEntry _ (portOf p) e).tx p)

theorem State.Order.endCopy (o : s.Order H F B) (p : TrunkPort) : (s.endCopy p).Order H F B := by
  have line : ∀ l, (s.onTrunk p (fun t => { t with lineOut := l })).Order H F B := fun l => by
    refine o.apart ?_ (by cases p <;> rfl) (fun y => by cases p <;> cases y <;> rfl) (by cases p <;> rfl)
    cases p <;> exact ⟨rfl, rfl, rfl, rfl, fun q => by cases q <;> rfl, rfl, rfl, rfl, rfl⟩
  unfold State.endCopy
  split
  · exact o
  · next e _ =>
    dsimp only
    split
    · exact (line (copySymbols (s.frameBytes e.frame) (s.trunk p).tx.txSeq)).leaveFlight p
    · exact (line (copySymbols (s.frameBytes e.frame) (s.trunk p).tx.txSeq)).onTx p _ rfl

end Sys2Proof.Machine

end

section
/-! Receivers and links keep the books. -/

namespace Sys2Proof.Machine

variable {s t u : State} {H F B : List Nat} {r : Nat} {p : TrunkPort}

/-! ### A receiver's record -/

theorem State.apart_onRx (s : State) (p : TrunkPort) (f : Receiver → Receiver) : s.Apart (s.onRx p f) := by
  cases p <;> exact ⟨rfl, rfl, rfl, rfl, fun q => by cases q <;> rfl, rfl, rfl, rfl, rfl⟩

/-- One receiver's record replaced among the records being filled. -/
theorem State.count_filling_onRx (s : State) (p : TrunkPort) (f : Receiver → Receiver) (x : Nat) :
    (s.onRx p f).filling.count x + (s.trunk p).rx.reception.record?.toList.count x =
      s.filling.count x + (f (s.trunk p).rx).reception.record?.toList.count x := by
  cases p
  · show ((f s.trunkA.rx).reception.record?.toList ++ s.trunkB.rx.reception.record?.toList ++
        s.loc.ingress.record?.toList).count x + s.trunkA.rx.reception.record?.toList.count x =
      (s.trunkA.rx.reception.record?.toList ++ s.trunkB.rx.reception.record?.toList ++ s.loc.ingress.record?.toList).count x +
        (f s.trunkA.rx).reception.record?.toList.count x
    simp only [List.count_append]
    omega
  · show (s.trunkA.rx.reception.record?.toList ++ (f s.trunkB.rx).reception.record?.toList ++
        s.loc.ingress.record?.toList).count x + s.trunkB.rx.reception.record?.toList.count x =
      (s.trunkA.rx.reception.record?.toList ++ s.trunkB.rx.reception.record?.toList ++ s.loc.ingress.record?.toList).count x +
        (f s.trunkB.rx).reception.record?.toList.count x
    simp only [List.count_append]
    omega

theorem State.InPlace.onRx (h : s.InPlace) (p : TrunkPort) (f : Receiver → Receiver) : (s.onRx p f).InPlace :=
  h.of_entriesStay (s.apart_onRx p f).entriesStay (fun y => by cases p <;> cases y <;> rfl) (by cases p <;> rfl)

/-- A receiver lets go of one record and takes another up. -/
theorem State.Order.onRx {x y : Option Nat} (o : s.Order H (y.toList ++ F) B) (p : TrunkPort) (f : Receiver → Receiver)
    (hx : (s.trunk p).rx.reception.record? = x) (hy : (f (s.trunk p).rx).reception.record? = y) :
    (s.onRx p f).Order H (x.toList ++ F) B := by
  refine ⟨((s.apart_onRx p f).books o.books).perm (.refl _) (List.perm_iff_count.mpr fun z => ?_) (.refl _), o.inPlace.onRx p f⟩
  have moved := s.count_filling_onRx p f z
  rw [hx, hy] at moved
  simp only [List.count_append]
  omega

/-- A receiver that keeps its record. -/
theorem State.Order.onRx_same (o : s.Order H F B) (p : TrunkPort) (f : Receiver → Receiver)
    (h : (f (s.trunk p).rx).reception.record? = (s.trunk p).rx.reception.record?) : (s.onRx p f).Order H F B := by
  refine ⟨((s.apart_onRx p f).books o.books).perm (.refl _) (List.perm_iff_count.mpr fun z => ?_) (.refl _), o.inPlace.onRx p f⟩
  have moved := s.count_filling_onRx p f z
  rw [h] at moved
  simp only [List.count_append]
  omega

theorem State.Order.answer (o : s.Order H F B) (p : TrunkPort) (a : Answer) : (s.answer p a).Order H F B := o.onRx_same p _ rfl

theorem State.header_frame {f : RxFrame} (hs : s.receiversSound = true) (h : (s.trunk p).rx.reception = .header f) :
    f.frame = none := by
  have sound := s.receiversSound_iff.mp hs p
  rw [h] at sound
  simp only [Reception.sound, Bool.and_eq_true, Option.isNone_iff_eq_none] at sound
  obtain ⟨⟨⟨⟨-, frame⟩, -⟩, -⟩, -⟩ := sound
  exact frame

theorem State.check_frame {f : RxFrame} (hs : s.receiversSound = true) (h : (s.trunk p).rx.reception = .check f) :
    f.frame.isSome = !f.refused := by
  have sound := s.receiversSound_iff.mp hs p
  rw [h] at sound
  simp only [Reception.sound, RxFrame.admitted, Bool.and_eq_true, decide_eq_true_eq] at sound
  obtain ⟨⟨⟨-, frame⟩, -⟩, -⟩ := sound
  exact frame

/-! ### A complete frame on its backlog -/

/-- One backlog replaced. -/
theorem State.count_backlogged (s : State) (q : Port) (l : List Nat) (x : Nat) :
    (s.setBacklog q l).backlogged.count x + (s.backlog q).count x = s.backlogged.count x + l.count x := by
  cases q
  · show (l ++ s.steer.backlogB ++ s.steer.backlogL).count x + s.steer.backlogA.count x =
      (s.steer.backlogA ++ s.steer.backlogB ++ s.steer.backlogL).count x + l.count x
    simp only [List.count_append]
    omega
  · show (s.steer.backlogA ++ l ++ s.steer.backlogL).count x + s.steer.backlogB.count x =
      (s.steer.backlogA ++ s.steer.backlogB ++ s.steer.backlogL).count x + l.count x
    simp only [List.count_append]
    omega
  · show (s.steer.backlogA ++ s.steer.backlogB ++ l).count x + s.steer.backlogL.count x =
      (s.steer.backlogA ++ s.steer.backlogB ++ s.steer.backlogL).count x + l.count x
    simp only [List.count_append]
    omega

/-- A frame complete (R55, R179): WAITING with no reference, at the tail of a backlog. -/
def State.complete (s : State) (q : Port) (r : Nat) : State :=
  (s.setRecord r { s.record r with state := .waiting, refs := 0 }).setBacklog q (s.backlog q ++ [r])

theorem State.complete_queues (s : State) (q y : Port) (r : Nat) : (s.complete q r).queues y = s.queues y := by
  cases q <;> cases y <;> rfl

theorem State.rebooked_complete (s : State) (q : Port) (r : Nat) : State.Rebooked r s (s.complete q r) := by
  have set := s.rebooked_setRecord r 0 .waiting
  have record : ∀ x, (s.complete q r).record x =
      (s.setRecord r { s.record r with state := .waiting, refs := 0 }).record x := fun x => by
    cases q <;> rfl
  exact ⟨by cases q <;> rfl, by cases q <;> rfl, by cases q <;> rfl, by rw [record]; exact set.own,
    fun x hx => by rw [record]; exact set.other x hx⟩

/-- A record in hand that nothing holds goes to a backlog. -/
theorem State.Given.complete (g : s.Given r H F B) (h : s.kept H r = 0) (q : Port) : (s.complete q r).Books H F B := by
  obtain ⟨own, alone, F', B', k, rfl, rfl⟩ := g
  have placed := k.placed r own
  rw [h, if_pos rfl] at placed
  unfold State.waits at placed
  have entered : ∀ x, (s.complete q r).entered x = s.entered x := State.entered_congr (s.complete_queues q · r)
  have kept : ∀ x, (s.complete q r).kept H x = s.kept H x := fun x => by
    unfold State.kept
    rw [entered]
    cases q <;> rfl
  have backlogged : ∀ x, (s.complete q r).backlogged.count x = s.backlogged.count x + if x = r then 1 else 0 := fun x => by
    have set := s.count_backlogged q (s.backlog q ++ [r]) x
    have same : (s.complete q r).backlogged = (s.setBacklog q (s.backlog q ++ [r])).backlogged := by cases q <;> rfl
    rw [List.count_append, count_cons_if, List.count_nil] at set
    rw [same]
    omega
  have record : (s.complete q r).record r = { s.record r with state := .waiting, refs := 0 } := by
    have : (s.complete q r).record r = (s.setRecord r { s.record r with state := .waiting, refs := 0 }).record r := by
      cases q <;> rfl
    rw [this, State.record_setRecord_same]
  have unfilled : (F'.erase r).count r = 0 := by
    rw [List.count_erase_self]
    omega
  have unqueued : (s.complete q r).isQueued r = false := by
    rw [← Bool.not_eq_true, State.isQueued_iff_entered, entered, State.entered_of_kept h]
    exact fun e => e rfl
  refine k.moved (s.rebooked_complete q r) own (fun x _ => kept x) (fun x _ => entered x) (fun x hx => List.count_erase_of_ne hx)
    (fun x hx => ?_) ?_ ?_ ?_ (fun y => by rw [State.complete_queues]; exact k.single y)
  · unfold State.waits
    rw [backlogged, if_neg hx, List.count_erase_of_ne hx, Nat.add_zero]
  · rw [record, kept, h]
  · unfold State.waits
    rw [unfilled, backlogged, if_pos rfl, alone, List.count_erase_self, kept, h, if_pos rfl]
    omega
  · rw [record, unfilled, if_neg zero_not_ne, unqueued]
    rfl

theorem State.complete_filling (s : State) (q : Port) (r : Nat) : (s.complete q r).filling = s.filling := by cases q <;> rfl

theorem State.InPlace.complete (h : s.InPlace) (q : Port) (r : Nat) : (s.complete q r).InPlace :=
  h.of_entriesStay (State.entriesStay_of_queues (s.complete_queues q · r)) (fun y => by cases q <;> cases y <;> rfl)
      (by cases q <;> rfl)

/-! ### What a receiver takes -/

theorem State.Order.headerBad (o : s.Order H F B) (hr : (s.trunk p).rx.reception.record? = none) : (s.headerBad p).Order H F B :=
  (o.onRx (x := none) (y := none) p (fun x => { x with reception := .waitSof }) hr rfl).raiseTrunk p _

theorem State.Order.checkFailed {f : RxFrame} (o : s.Order H F B) (hr : (s.trunk p).rx.reception.record? = f.frame) :
    (s.checkFailed p f).Order H F B :=
  (((o.onRx (y := none) p (fun x => { x with reception := .waitSof }) hr rfl).answer p _).abandon).raiseTrunk p _

theorem State.reception_raiseTrunk (s : State) (p : TrunkPort) (k : TrunkStat) :
    ((s.raiseTrunk p k).trunk p).rx = (s.trunk p).rx := (s.calm_raiseTrunk p k).rx p

theorem State.trunk_onRx (s : State) (p : TrunkPort) (f : Receiver → Receiver) :
    ((s.onRx p f).trunk p).rx = f (s.trunk p).rx := by
  cases p <;> rfl

theorem State.checkFailed_reception (s : State) (p : TrunkPort) (f : RxFrame) :
    ((s.checkFailed p f).trunk p).rx.reception = .waitSof := by
  unfold State.checkFailed State.answer State.setReception
  rw [State.reception_raiseTrunk, (State.calm_abandon _ f.frame).rx, State.trunk_onRx, State.trunk_onRx]

/-- From a receiver that fills no record another reception that fills none. -/
theorem State.Order.setReception_none {y : Reception} (o : s.Order H F B) (hx : (s.trunk p).rx.reception.record? = none)
    (hy : y.record? = none) : (s.setReception p y).Order H F B :=
  o.onRx (x := none) (y := none) p _ hx hy

theorem State.Order.takeSof (o : s.Order H F B) (hs : s.receiversSound = true) (p : TrunkPort) : (s.takeSof p).Order H F B := by
  unfold State.takeSof
  split
  · next h => exact o.setReception_none (by rw [h]; rfl) rfl
  · next f h =>
    refine (o.headerBad (by rw [h]; exact State.header_frame hs h)).setReception_none ?_ rfl
    unfold State.headerBad State.setReception
    rw [State.reception_raiseTrunk, State.trunk_onRx]
    rfl
  · next f h => exact (o.checkFailed (by rw [h]; rfl)).setReception_none (by rw [State.checkFailed_reception]; rfl) rfl
  · next f h => exact (o.checkFailed (by rw [h]; rfl)).setReception_none (by rw [State.checkFailed_reception]; rfl) rfl

theorem bodyState_record? (f : RxFrame) : (bodyState f).record? = f.frame := by
  unfold bodyState
  split <;> rfl

theorem State.Order.fill (o : s.Order H F B) (r i : Nat) (l : List Byte) : (s.fill r i l).Order H F B :=
  o.flows (s.flows_fill r i l) ((State.apart_fill r l s i).books o.books)

theorem State.Order.askRoom {src : Source} {len : Nat} (o : s.Order H F B) (h : s.askRoom src len = .granted r t) :
    t.Order H (r :: F) B :=
  o.flows (State.flows_askRoom h) (o.books.askRoom h)

theorem State.Order.judgeHeader {f : RxFrame} (o : s.Order H F B) (hx : (s.trunk p).rx.reception.record? = none)
    (hf : f.frame = none) : (s.judgeHeader p f).Order H F B := by
  have refuse : ∀ g : RxFrame, g.frame = none → (s.setReception p (bodyState g)).Order H F B := fun g hg =>
    o.setReception_none hx (by rw [bodyState_record?, hg])
  unfold State.judgeHeader
  dsimp only
  split
  · exact o.headerBad hx
  · split
    · exact refuse _ hf
    · split
      · next r v hv =>
        have filled := (o.askRoom hv).fill r 0 f.header
        have same : ((v.fill r 0 f.header).trunk p).rx = (s.trunk p).rx :=
          ((State.flows_askRoom hv).trans (v.flows_fill r 0 f.header)).calm.rx p
        exact filled.onRx (x := none) (y := some r) p _ (by rw [same]; exact hx) (bodyState_record? _)
      · exact refuse _ hf

theorem State.Order.writeBody (o : s.Order H F B) (x : Option Nat) (i : Nat) (b : Byte) : (s.writeBody x i b).Order H F B := by
  cases x with
  | none => exact o
  | some r => exact o.fill r i [b]

theorem State.writeBody_rx (s : State) (x : Option Nat) (i : Nat) (b : Byte) (p : TrunkPort) :
    ((s.writeBody x i b).trunk p).rx = (s.trunk p).rx := by
  cases x with
  | none => rfl
  | some r => exact (s.calm_writeFrameByte r i b).rx p

theorem State.Order.takeData (o : s.Order H F B) (hs : s.receiversSound = true) (p : TrunkPort) (b : Byte) :
    (s.takeData p b).Order H F B := by
  unfold State.takeData
  split
  · exact o
  · next f h =>
    have bare := State.header_frame hs h
    dsimp only
    split
    · exact o.setReception_none (by rw [h]; exact bare) bare
    · exact o.judgeHeader (by rw [h]; exact bare) bare
  · next f h =>
    dsimp only
    refine (o.writeBody f.frame (10 + f.after) b).onRx_same p _ ?_
    rw [State.writeBody_rx, h]
    dsimp only
    split <;> rfl
  · next f h =>
    split
    · exact o.onRx_same p _ (by rw [h]; rfl)
    · exact o.checkFailed (by rw [h]; rfl)

/-- A frame stored leaves its receiver for the backlog of its port (R55). -/
theorem State.Order.storeFrame {f : RxFrame} (o : s.Order H F B) (hx : (s.trunk p).rx.reception.record? = some r) :
    (s.storeFrame p f r).Order H F B := by
  let g : Receiver → Receiver := fun x => { x with reception := .waitSof, lastSeq := some f.seq }
  have gone : s.Books H (r :: (F ++ (s.onRx p g).filling)) B := o.books.perm (.refl _) (List.perm_iff_count.mpr fun z => by
    have moved := s.count_filling_onRx p g z
    have own : (some r).toList.count z = List.count z [r] := rfl
    have left : (g (s.trunk p).rx).reception.record?.toList.count z = 0 := rfl
    rw [hx, own, left, count_cons_if, List.count_nil] at moved
    rw [count_cons_if, List.count_append, List.count_append]
    omega) (.refl _)
  have complete := gone.given_filling.complete gone.kept_filling (portOf p)
  have received : ((s.complete (portOf p) r).onRx p g).Order H F B := by
    refine ⟨?_, (o.inPlace.complete (portOf p) r).onRx p g⟩
    have filling : ((s.complete (portOf p) r).onRx p g).filling = (s.onRx p g).filling := by cases p <;> rfl
    rw [filling]
    exact (State.apart_onRx _ p g).books complete
  exact (received.answer p _).raiseTrunk p _

theorem State.Order.dispose {f : RxFrame} (o : s.Order H F B) (hs : s.receiversSound = true)
    (h : (s.trunk p).rx.reception = .check f) : (s.dispose p f).Order H F B := by
  have own : (s.trunk p).rx.reception.record? = f.frame := by rw [h]; rfl
  have whole := State.check_frame hs h
  unfold State.dispose
  split
  · exact o.checkFailed own
  · split
    · exact (((o.onRx (y := none) p (fun x => { x with reception := .waitSof }) own rfl).answer p _).abandon).raiseTrunk p _
    · split
      · next r _ hr => exact o.storeFrame (by rw [own, hr])
      · next hn =>
        have bare : f.frame = none := by
          cases hf : f.frame with
          | none => rfl
          | some r =>
            rw [hf] at whole
            exact (hn r (by simpa using whole.symm) hf).elim
        exact ((o.setReception_none (y := .waitSof) (by rw [own, bare]) rfl).answer p _).raiseTrunk p _

theorem State.Order.takeEof (o : s.Order H F B) (hs : s.receiversSound = true) (p : TrunkPort) : (s.takeEof p).Order H F B := by
  unfold State.takeEof
  split
  · exact o
  · next f h => exact o.headerBad (by rw [h]; exact State.header_frame hs h)
  · next f h => exact o.checkFailed (by rw [h]; rfl)
  · next f h =>
    split
    · exact o.checkFailed (by rw [h]; rfl)
    · exact o.dispose hs h

theorem State.Order.takeError (o : s.Order H F B) (hs : s.receiversSound = true) (p : TrunkPort) :
    (s.takeError p).Order H F B := by
  unfold State.takeError
  split
  · exact o
  · next f h => exact o.headerBad (by rw [h]; exact State.header_frame hs h)
  · next f h => exact o.onRx_same p _ (by rw [h]; rfl)
  · next f h => exact o.onRx_same p _ (by rw [h]; rfl)

theorem State.Order.takeHello (o : s.Order H F B) (p : TrunkPort) : (s.takeHello p).Order H F B := o.onRx_same p _ rfl

theorem State.Order.loseFrame (o : s.Order H F B) (hs : s.receiversSound = true) (p : TrunkPort) :
    (s.loseFrame p).Order H F B := by
  unfold State.loseFrame
  dsimp only
  split
  · exact o
  · next f h =>
    exact (o.onRx (x := none) (y := none) p (fun x => { x with reception := .waitSof }) (by rw [h]; exact State.header_frame hs h)
      rfl).raiseTrunk p _
  · next f h =>
    exact ((o.onRx (x := f.frame) (y := none) p (fun x => { x with reception := .waitSof })
        (by rw [h]; rfl) rfl).abandon).raiseTrunk p _
  · next f h =>
    exact ((o.onRx (x := f.frame) (y := none) p (fun x => { x with reception := .waitSof })
        (by rw [h]; rfl) rfl).abandon).raiseTrunk p _

theorem State.Order.disableRx (o : s.Order H F B) (p : TrunkPort) : (s.disableRx p).Order H F B :=
  (o.onRx (y := none) p (fun x => { x with reception := .waitSof, answers := [] }) rfl rfl).abandon

theorem State.Order.resetRx (o : s.Order H F B) (p : TrunkPort) : (s.resetRx p).Order H F B :=
  (o.onRx (y := none) p (fun x => { x with reception := .waitSof }) rfl rfl).abandon

/-! ### The link -/

theorem State.Order.linkUp (o : s.Order H F B) (p : TrunkPort) : (s.linkUp p).Order H F B := by
  have up := (o.onLink p (fun l => { l with up := true })).chosen
  unfold State.linkUp
  dsimp only
  split
  · exact (up.raiseEvent _ _ _).resume p
  · exact (up.resume p).raiseEvent _ _ _

/-- What a receiver does when its link goes DOWN, or when it takes a symbol, keeps the books where the receivers are sound. -/
def State.KeepsOrder (f : State → State) : Prop := ∀ s, s.Order [] [] [] → s.receiversSound = true → (f s).Order [] [] []

theorem Work.receivers {G : List Part} (w : Work G s t) (h : s.receiversSound = true) : t.receiversSound = true :=
  w.keeps .receivers h

theorem State.Order.linkDown {f : State → State} (o : s.Order [] [] []) (hs : s.receiversSound = true) (p : TrunkPort) (b : Bool)
    (hf : State.KeepsOrder f) : (s.linkDown p b f).Order [] [] [] := by
  have down := (o.onLink p (fun l => { l with up := false, run := 0, silence := b })).chosen
  have sound := ((Work.onLink s p (fun l => { l with up := false, run := 0, silence := b })).trans (.chosen _)).receivers hs
  unfold State.linkDown
  dsimp only
  split
  · exact ((hf _ (down.raiseEvent _ _ _) (((State.still_raiseEvent _ _ _ _).work (F := [])).receivers sound)).suspend p).flushDown p
  · exact (((hf _ down sound).suspend p).flushDown p).raiseEvent _ _ _

theorem State.Order.hear {f : State → State} (o : s.Order [] [] []) (hs : s.receiversSound = true) (p : TrunkPort)
    (hf : State.KeepsOrder f) : (s.hear p f).Order [] [] [] := by
  have heard := o.onLink p Link.heard
  have sound := (Work.onLink s p Link.heard).receivers hs
  rcases s.hear_cases p f with e | e | e | e <;> rw [e]
  · exact o
  · exact hf _ heard sound
  · exact hf _ (heard.chosen.linkUp p) ((Work.linkUp _ p).receivers ((Work.chosen (F := []) _).receivers sound))
  · exact (hf _ heard.chosen ((Work.chosen (F := []) _).receivers sound)).linkUp p

theorem State.Order.hearError (o : s.Order [] [] []) (hs : s.receiversSound = true) (p : TrunkPort) :
    (s.hearError p (fun t => t.takeError p)).Order [] [] [] := by
  unfold State.hearError
  split
  · exact (o.onLink p _).takeError ((Work.onLink s p _).receivers hs) p
  · exact o

theorem State.Order.silence (o : s.Order [] [] []) (hs : s.receiversSound = true) (p : TrunkPort) :
    (s.silence p).Order [] [] [] := by
  unfold State.silence
  split
  · split
    · exact o.linkDown hs p true fun _ k h => k.loseFrame h p
    · exact o.onLink p _
  · exact o

theorem State.Order.switchOff (o : s.Order [] [] []) (hs : s.receiversSound = true) (p : TrunkPort) :
    (s.switchOff p).Order [] [] [] := by
  unfold State.switchOff
  split
  · exact o.linkDown hs p false fun _ k _ => k.disableRx p
  · exact (o.onLink p _).disableRx p

theorem State.Order.sendAnswer (o : s.Order H F B) (p : TrunkPort) : (s.sendAnswer p).Order H F B := by
  unfold State.sendAnswer
  split
  · refine o.apart ?_ (by cases p <;> rfl) (fun y => by cases p <;> cases y <;> rfl) (by cases p <;> rfl)
    cases p <;> exact ⟨rfl, rfl, rfl, rfl, fun q => by cases q <;> rfl, rfl, rfl, rfl, rfl⟩
  · exact o

end Sys2Proof.Machine

end

section
/-! The local port keeps the books. -/

namespace Sys2Proof.Machine

variable {s t u : State} {H F B : List Nat} {r : Nat}

/-! ### Local ingress -/

/-- The record of local ingress replaced among the records being filled. -/
theorem State.count_filling_setIngress (s : State) (y : Ingress) (x : Nat) :
    (s.setIngress y).filling.count x + s.loc.ingress.record?.toList.count x = s.filling.count x + y.record?.toList.count x := by
  show (s.trunkA.rx.reception.record?.toList ++ s.trunkB.rx.reception.record?.toList ++ y.record?.toList).count x +
      s.loc.ingress.record?.toList.count x =
    (s.trunkA.rx.reception.record?.toList ++ s.trunkB.rx.reception.record?.toList ++ s.loc.ingress.record?.toList).count x +
      y.record?.toList.count x
  simp only [List.count_append]
  omega

theorem State.InPlace.setIngress (h : s.InPlace) (x : Ingress) : (s.setIngress x).InPlace :=
  h.of_entriesStay (s.apart_setIngress x).entriesStay (fun y => by cases y <;> rfl) rfl

/-- Local ingress lets go of one record and takes another up. -/
theorem State.Order.setIngress {x y : Option Nat} {z : Ingress} (o : s.Order H (y.toList ++ F) B)
    (hx : s.loc.ingress.record? = x) (hy : z.record? = y) : (s.setIngress z).Order H (x.toList ++ F) B := by
  refine ⟨((s.apart_setIngress z).books o.books).perm (.refl _) (List.perm_iff_count.mpr fun w => ?_) (.refl _),
      o.inPlace.setIngress z⟩
  have moved := s.count_filling_setIngress z w
  rw [hx, hy] at moved
  simp only [List.count_append]
  omega

/-- Local ingress keeps its record. -/
theorem State.Order.setIngress_same {z : Ingress} (o : s.Order H F B) (hx : s.loc.ingress.record? = z.record?) :
    (s.setIngress z).Order H F B := by
  refine ⟨((s.apart_setIngress z).books o.books).perm (.refl _) (List.perm_iff_count.mpr fun w => ?_) (.refl _),
      o.inPlace.setIngress z⟩
  have moved := s.count_filling_setIngress z w
  rw [hx] at moved
  simp only [List.count_append]
  omega

/-- Local ingress, filling no record, goes on filling none. -/
theorem State.Order.setIngress_none {z : Ingress} (o : s.Order H F B) (hx : s.loc.ingress.record? = none)
    (hz : z.record? = none) :
    (s.setIngress z).Order H F B := o.setIngress (x := none) (y := none) hx hz

theorem State.Order.refuseLocal (o : s.Order H F B) (hx : s.loc.ingress.record? = none) (why : RefuseReason) (b : Bool) :
    (s.refuseLocal why b).Order H F B := by
  refine ((o.raiseLocal .localRefusals).setIngress_none hx ?_).raiseEvent _ _ _
  cases b <;> rfl

/-- The books with the record `r` taken from local ingress, which is filling it or has just been given it. -/
theorem State.Order.taken_of_ingress (o : s.Order H F B) (hx : s.loc.ingress.record? = some r) :
    s.Books H (r :: (F ++ (s.setIngress .idle).filling)) B :=
  o.books.perm (.refl _) (List.perm_iff_count.mpr fun z => by
    have moved := s.count_filling_setIngress .idle z
    have own : (some r).toList.count z = List.count z [r] := rfl
    have left : Ingress.idle.record?.toList.count z = 0 := rfl
    rw [hx, own, left, count_cons_if, List.count_nil] at moved
    rw [count_cons_if, List.count_append, List.count_append]
    omega) (.refl _)

theorem State.Order.taken_of_none (o : s.Order H (r :: F) B) (hx : s.loc.ingress.record? = none) :
    s.Books H (r :: (F ++ (s.setIngress .idle).filling)) B :=
  o.books.perm (.refl _) (List.perm_iff_count.mpr fun z => by
    have moved := s.count_filling_setIngress .idle z
    have left : Ingress.idle.record?.toList.count z = 0 := rfl
    rw [hx, left] at moved
    rw [count_cons_if, List.count_append, List.count_append, count_cons_if]
    have none : (none : Option Nat).toList.count z = 0 := rfl
    omega) (.refl _)

/-- A complete local frame goes to backlog L (R179). -/
theorem State.Books.handOverLocal (k : s.Books H (r :: (F ++ (s.setIngress .idle).filling)) B) (h : s.InPlace) :
    (s.handOverLocal r).Order H F B := by
  have complete := k.given_filling.complete k.kept_filling .l
  have eq : s.handOverLocal r = ((s.complete .l r).raiseLocal .framesIn).setIngress .idle := rfl
  rw [eq]
  exact ⟨(State.apart_setIngress _ .idle).books ((State.apart_raiseLocal _ .framesIn).books complete),
    ((h.complete .l r).flows (State.flows_raiseLocal _ .framesIn)).setIngress .idle⟩

/-- The record of a refused local frame is given back, and local ingress fills none (R179, R180). -/
theorem State.Order.releaseRefused (o : s.Order H F B) (hx : s.loc.ingress.record? = some r) (why : RefuseReason) (b : Bool) :
    ((s.release r).refuseLocal why b).Order H F B := by
  have released := (o.taken_of_ingress hx).release_filling
  have raised := (State.apart_raiseLocal (s.release r) .localRefusals).books released
  have calm := (s.flows_release r).calm.trans ((s.release r).calm_raiseLocal .localRefusals)
  have place := (o.inPlace.flows (s.flows_release r)).flows ((s.release r).flows_raiseLocal .localRefusals)
  have eq : (s.release r).refuseLocal why b =
      ((((s.release r).raiseLocal .localRefusals)).setIngress (if b then .idle else .discard)).raiseEvent .localRefused (some .l)
        (some (refuseCode why)) := rfl
  rw [eq]
  generalize (s.release r).raiseLocal .localRefusals = v at raised calm place
  have filling : (v.setIngress (if b then .idle else .discard)).filling = (s.setIngress .idle).filling := by
    have rxA : v.trunkA.rx = s.trunkA.rx := calm.rx .a
    have rxB : v.trunkB.rx = s.trunkB.rx := calm.rx .b
    show v.trunkA.rx.reception.record?.toList ++ v.trunkB.rx.reception.record?.toList ++ Option.toList _ =
      s.trunkA.rx.reception.record?.toList ++ s.trunkB.rx.reception.record?.toList ++ Option.toList _
    rw [rxA, rxB]
    cases b <;> rfl
  exact State.Order.raiseEvent ⟨by rw [filling]; exact (v.apart_setIngress _).books raised, place.setIngress _⟩ _ _ _

theorem State.Order.askLocal (o : s.Order H F B) (hx : s.loc.ingress.record? = none) (x : List Byte) (n : Nat) :
    (s.askLocal x n).Order H F B := by
  unfold State.askLocal
  dsimp only
  split
  · next r v hv =>
    have filled := (o.askRoom hv).fill r 0 x
    have none : (v.fill r 0 x).loc.ingress.record? = none := by
      rw [((State.flows_askRoom hv).trans (v.flows_fill r 0 x)).told.record?, hx]
    split
    · exact (filled.taken_of_none none).handOverLocal filled.inPlace
    · exact filled.setIngress (y := some r) none rfl
  · split
    · exact o.refuseLocal hx _ _
    · exact o.setIngress_none hx rfl

theorem State.Order.judgeLocal (o : s.Order H F B) (hx : s.loc.ingress.record? = none) (x : List Byte) (b : Bool) :
    (s.judgeLocal x b).Order H F B := by
  unfold State.judgeLocal
  dsimp only
  split
  · exact o.refuseLocal hx _ _
  · split
    · exact o.refuseLocal hx _ _
    · split
      · exact o.refuseLocal hx _ _
      · split
        · exact o.setIngress_none hx rfl
        · exact o.askLocal hx _ _

theorem State.Order.localHeaderByte (o : s.Order H F B) (hx : s.loc.ingress.record? = none) (x : List Byte) (b : Bool) :
    (s.localHeaderByte x b).Order H F B := by
  unfold State.localHeaderByte
  split
  · split
    · exact o.refuseLocal hx _ _
    · exact o.setIngress_none hx rfl
  · exact o.judgeLocal hx x b

theorem State.Order.localPayloadByte (o : s.Order H F B) (hx : s.loc.ingress.record? = some r) (k len : Nat) (b : Byte)
    (last : Bool) :
    (s.localPayloadByte r k len b last).Order H F B := by
  have written := o.fill r (10 + k) [b]
  have own : (s.writeFrameByte r (10 + k) b).loc.ingress.record? = some r :=
    (s.flows_fill r (10 + k) [b]).told.record?.trans hx
  unfold State.localPayloadByte
  dsimp only
  split
  · split
    · exact (State.Order.taken_of_ingress written own).handOverLocal written.inPlace
    · exact o.releaseRefused hx _ _
  · split
    · exact o.releaseRefused hx _ _
    · exact State.Order.setIngress_same written (own.trans rfl)

theorem State.Order.takeLocalByte (o : s.Order H F B) (b : Byte) (last : Bool) : (s.takeLocalByte b last).Order H F B := by
  unfold State.takeLocalByte
  split
  · split
    · next h => exact o.localHeaderByte (by rw [h]; rfl) _ _
    · next h => exact o.localHeaderByte (by rw [h]; rfl) _ _
    · exact o
    · next h => exact o.localPayloadByte (by rw [h]; rfl) _ _ _ _
    · next h =>
      split
      · exact o.setIngress_none (by rw [h]; rfl) rfl
      · exact o
  · exact o

theorem State.Order.retryLocal (o : s.Order H F B) : s.retryLocal.Order H F B := by
  unfold State.retryLocal
  split
  · next h =>
    split
    · exact o
    · exact o.askLocal (by rw [h]; rfl) _ _
  · exact o

/-! ### Local egress -/

theorem State.apart_setEgress (s : State) (x : Egress) : s.Apart (s.setEgress x) :=
  ⟨rfl, rfl, rfl, rfl, fun q => by cases q <;> rfl, rfl, rfl, rfl, rfl⟩

/-- Local egress with a transfer of a waiting entry, or with none. -/
theorem State.Order.setEgress {x : Egress} (o : s.Order H F B) (hx : ∀ e k, x = .transfer e k → e ∈ (s.queues .l).entries) :
    (s.setEgress x).Order H F B :=
  ⟨(s.apart_setEgress x).books o.books, fun p e he => by
    rw [(s.apart_setEgress x).queues]
    exact o.inPlace.flight p e (by cases p <;> exact he), hx⟩

theorem State.Order.lastOut (o : s.Order H F B) (x : Option OutByte) :
    State.Order { s with loc := { s.loc with lastOut := x } } H F B :=
  o.apart ⟨rfl, rfl, rfl, rfl, fun q => by cases q <;> rfl, rfl, rfl, rfl, rfl⟩ rfl (fun p => by cases p <;> rfl) rfl

theorem State.Order.selectLocal (n : Nat) : ∀ {s : State}, s.Order H F B → (∀ e k, s.loc.egress ≠ .transfer e k) →
    (s.selectLocal n).Order H F B := by
  induction n with
  | zero => exact fun o _ => o
  | succ n ih =>
    intro s o free
    unfold State.selectLocal
    split
    · exact o
    · next e he =>
      have mem : e ∈ (s.queues .l).entries := QueueSet.mem_of_urgent he
      split
      · refine o.setEgress fun d k hd => ?_
        cases hd
        exact mem
      · have raised := o.raiseLocal .residenceDiscards
        have removed : ((s.raiseLocal .residenceDiscards).removeEntry .l e).Order H F B :=
          raised.removeEntry mem (fun p hp => by cases p <;> cases hp) fun _ => free e
        dsimp only
        split
        · exact removed
        · refine ih removed fun d k => ?_
          rw [(State.calm_removeEntry _ .l e).egress]
          exact free d k

theorem State.Order.takeOutByte (o : s.Order H F B) : s.takeOutByte.Order H F B := by
  have out := o.lastOut s.outboundLines
  unfold State.takeOutByte
  dsimp only
  split
  · exact o
  · next e k he =>
    have mem := o.inPlace.transfer e k he
    split
    · refine ((out.setEgress (x := .idle) nofun).raiseLocal .framesOut).removeEntry mem (fun p hp => by cases p <;> cases hp)
        fun _ d => nofun
    · refine out.setEgress fun d j hd => ?_
      cases hd
      exact mem
  · exact out.setEgress nofun

end Sys2Proof.Machine

end

section
/-! Steering and numbering keep the books. -/

namespace Sys2Proof.Machine

variable {s t u : State} {H H' F B : List Nat} {r : Nat} {q : Port}

/-- References pass between the hand and M, the cache or the numbering unit. -/
theorem State.Order.setAside (o : s.Order H F B) (m : Mgmt) (l : List Nat)
    (h : ∀ x, (m.queue.map Request.frame).count x + l.count x + (m.cache.map CacheEntry.frame).count x + H'.count x =
      s.heldAside x + H.count x) : State.Order { s with mgmt := m, enums := l } H' F B := by
  have queues : ∀ y, State.queues { s with mgmt := m, enums := l } y = s.queues y := fun y => by cases y <;> rfl
  refine ⟨?_, o.inPlace.of_entriesStay (State.entriesStay_of_queues queues) (fun p => by cases p <;> rfl) rfl⟩
  refine o.books.same rfl rfl rfl (fun _ => rfl) (fun x => ?_) (fun _ => rfl) (fun _ => rfl) (fun _ => rfl)
    (fun y => by rw [queues]; exact o.books.single y)
  have aside := h x
  show s.entered x + ((m.queue.map Request.frame).count x + l.count x + (m.cache.map CacheEntry.frame).count x) + H'.count x =
    s.entered x + s.heldAside x + H.count x
  omega

/-! ### A frame being steered -/

/-- A frame taken off its backlog and not yet at the end of its placement (R6, R22), which is not being filled. -/
structure State.Steering (s : State) (r : Nat) (H F B : List Nat) : Prop where
  given : s.Given r H (F ++ s.filling) B
  inPlace : s.InPlace
  complete : (s.record r).state ≠ .filling

/-- Its state says already whether a queue holds it (R28). -/
theorem State.Steering.state (g : s.Steering r H F B) : (s.record r).state = if s.isQueued r then .queued else .waiting := by
  obtain ⟨⟨own, -, F', B', k, -, -⟩, -, complete⟩ := g
  have state := k.state r own
  by_cases h : F'.count r ≠ 0
  · rw [if_pos h] at state
    exact absurd state complete
  · rwa [if_neg h] at state

theorem State.Steering.apart (g : s.Steering r H F B) (h : s.Apart t) (filling : t.filling = s.filling)
    (tx : ∀ p, (t.tx p).inFlight = (s.tx p).inFlight) (egress : t.loc.egress = s.loc.egress) : t.Steering r H F B :=
  ⟨by rw [filling]; exact h.given g.given, g.inPlace.of_entriesStay h.entriesStay tx egress, by rw [h.record]; exact g.complete⟩

theorem State.Steering.flows (g : s.Steering r H F B) (h : s.Apart t) (f : s.Flows t) : t.Steering r H F B :=
  g.apart h f.filling (fun p => congrArg Transmitter.inFlight (f.calm.tx p)) f.calm.egress

theorem State.Steering.place (g : s.Steering r H F B) (c : TrafficClass) (free : (s.queues q).frames.count r = 0) :
    (s.place q c r).Steering r H F B := by
  have flows := s.flows_place q c r
  refine ⟨by rw [flows.filling]; exact g.given.place c free, g.inPlace.flows flows, ?_⟩
  cases hc : s.canPlace q c with
  | true =>
    rw [State.place_taken hc, State.record_enqueue_same]
    exact nofun
  | false =>
    rw [State.place_skipped hc, (s.apart_raiseSkip q).record]
    exact g.complete

/-- One more holder beside the egress queues. -/
theorem State.Steering.heldMore (g : s.Steering r H F B) (hs : t.store = s.store) (queues : ∀ q, t.queues q = s.queues q)
    (backlogged : t.backlogged = s.backlogged) (more : ∀ x, t.heldAside x = s.heldAside x + if x = r then 1 else 0)
    (filling : t.filling = s.filling) (tx : ∀ p, (t.tx p).inFlight = (s.tx p).inFlight) (egress : t.loc.egress = s.loc.egress) :
    (t.setRecord r { t.record r with refs := (t.record r).refs + 1 }).Steering r H F B := by
  have record : ∀ x, t.record x = s.record x := fun x => by unfold State.record; rw [hs]
  have entered := State.entered_congr queues
  have kept : ∀ x, t.kept H x = s.kept H x + if x = r then 1 else 0 := fun x => by
    unfold State.kept
    rw [more, entered]
    omega
  have filled : (t.setRecord r { t.record r with refs := (t.record r).refs + 1 }).filling = s.filling := filling
  have after : (t.setRecord r { t.record r with refs := (t.record r).refs + 1 }).Books H (F ++ s.filling) B := by
    refine g.given.moved ⟨by rw [← hs]; rfl, by rw [← hs]; rfl, by rw [← hs]; rfl, ?_, fun x hx => ?_⟩ (fun x hx => ?_)
      (fun x _ => entered x) backlogged ?_ ?_ ?_ (fun y => ?_)
    · rw [State.record_setRecord_same, record]
    · rw [State.record_setRecord, if_neg hx, record]
    · exact (kept x).trans (by rw [if_neg hx, Nat.add_zero])
    · rw [State.record_setRecord_same, record, g.given.refs]
      exact ((kept r).trans (by rw [if_pos rfl])).symm
    · show t.kept H r ≠ 0
      rw [kept, if_pos rfl]
      omega
    · rw [State.record_setRecord_same, record, g.state, State.isQueued_setRecord, State.isQueued_congr (entered r)]
    · show ((t.setRecord r _).queues y).frames.Nodup
      obtain ⟨-, -, F', B', k, -, -⟩ := g.given
      rw [State.queues_setRecord, queues]
      exact k.single y
  have held : (t.setRecord r { t.record r with refs := (t.record r).refs + 1 }).kept H r ≠ 0 := by
    show t.kept H r ≠ 0
    rw [kept, if_pos rfl]
    omega
  refine ⟨by rw [filled]; exact after.given_held held, ?_, ?_⟩
  · exact (g.inPlace.of_entriesStay (State.entriesStay_of_queues queues) tx egress).of_entriesStay (t.entriesStay_setRecord r _)
      (fun p => by cases p <;> rfl) rfl
  · rw [State.record_setRecord_same, record]
    exact g.complete

theorem State.Steering.placeRequest (g : s.Steering r H F B) (x : Station) : (s.placeRequest r x).Steering r H F B := by
  unfold State.placeRequest
  split
  · refine g.heldMore (t := { s with mgmt := { s.mgmt with queue := s.mgmt.queue ++ [Request.mk r x] } }) rfl
      (fun q => by cases q <;> rfl) rfl (fun y => ?_) rfl (fun p => by cases p <;> rfl) rfl
    show ((s.mgmt.queue ++ [Request.mk r x]).map Request.frame).count y + s.enums.count y +
      (s.mgmt.cache.map CacheEntry.frame).count y = (s.mgmt.queue.map Request.frame).count y + s.enums.count y +
      (s.mgmt.cache.map CacheEntry.frame).count y + if y = r then 1 else 0
    have own : ([Request.mk r x].map Request.frame).count y = 0 + if y = r then 1 else 0 := count_cons_if [] r y
    rw [List.map_append, List.count_append, own]
    omega
  · exact g.flows ⟨rfl, rfl, rfl, rfl, fun q => by cases q <;> rfl, rfl, rfl, rfl, rfl⟩
      ⟨s.calm_raiseMgmt _, .inl rfl, State.entriesStay_of_queues fun q => by cases q <;> rfl⟩

theorem State.Steering.placeEnum (g : s.Steering r H F B) : (s.placeEnum r).Steering r H F B := by
  refine g.heldMore (t := { s with enums := s.enums ++ [r] }) rfl (fun q => by cases q <;> rfl) rfl (fun y => ?_) rfl
    (fun p => by cases p <;> rfl) rfl
  show (s.mgmt.queue.map Request.frame).count y + (s.enums ++ [r]).count y + (s.mgmt.cache.map CacheEntry.frame).count y =
    (s.mgmt.queue.map Request.frame).count y + s.enums.count y + (s.mgmt.cache.map CacheEntry.frame).count y +
      if y = r then 1 else 0
  rw [List.count_append, count_cons_if, List.count_nil]
  omega

/-- Deliveries to ports that do not hold the record. -/
theorem State.Steering.placeAll (g : s.Steering r H F B) (free : ∀ q, (s.queues q).frames.count r = 0) (x : Targets)
    (c : TrafficClass) (d : Station) : (s.placeAll x c r d).Steering r H F B := by
  have placeIf : ∀ {v : State} (b : Bool) (q : Port), v.Steering r H F B → (v.queues q).frames.count r = 0 →
      (v.placeIf b q c r).Steering r H F B := fun b q k h => by
    cases b
    · exact k
    · exact k.place c h
  have stay : ∀ (v : State) (b : Bool) (q y : Port), y ≠ q → (v.placeIf b q c r).queues y = v.queues y := fun v b q y h => by
    rw [State.queues_placeIf, if_neg fun e => h e.1]
  have a := placeIf x.a .a g (free .a)
  have b := placeIf x.b .b a (by rw [stay _ _ .a .b nofun]; exact free .b)
  have l := placeIf x.l .l b (by rw [stay _ _ .b .l nofun, stay _ _ .a .l nofun]; exact free .l)
  rw [State.placeAll_eq]
  dsimp only
  split
  · exact l.placeRequest d
  · exact l

/-- The end of placement (R22). -/
theorem State.Steering.finishPlacement (g : s.Steering r H F B) : (s.finishPlacement r).Order H F B := by
  by_cases h : (s.record r).refs = 0
  · rw [State.finishPlacement_unheld h]
    have flows := s.flows_release r
    exact ⟨by rw [flows.filling]; exact g.given.release (by rw [← g.given.refs, h]), g.inPlace.flows flows⟩
  · rw [State.finishPlacement_held h]
    have kept : s.kept H r ≠ 0 := by rw [← g.given.refs]; exact h
    refine ⟨?_, g.inPlace.of_entriesStay (s.entriesStay_setRecord r _) (fun p => by cases p <;> rfl) rfl⟩
    show (s.setRecord r _).Books H (F ++ s.filling) B
    refine g.given.moved (s.rebooked_setRecord r (s.record r).refs _) (fun _ _ => rfl) (fun _ _ => rfl) rfl ?_ kept ?_
        (fun y => ?_)
    · rw [State.record_setRecord_same]
      exact g.given.refs
    · rw [State.record_setRecord_same, State.isQueued_setRecord]
    · obtain ⟨-, -, F', B', k, -, -⟩ := g.given
      rw [State.queues_setRecord]
      exact k.single y

theorem State.apart_storeSteered (s : State) (r : Nat) (h : Header) : s.Apart (s.storeSteered r h) :=
  (((s.apart_writeFrameByte r 0 _).trans (State.apart_writeFrameByte _ r 1 _)).trans (State.apart_writeFrameByte _ r 4 _)).trans
    (State.apart_writeFrameByte _ r 5 _)

theorem State.flows_storeSteered (s : State) (r : Nat) (h : Header) : s.Flows (s.storeSteered r h) := by
  have write : ∀ (v : State) (i : Nat) (b : Byte), v.Flows (v.writeFrameByte r i b) := fun v i b => v.flows_fill r i [b]
  exact (((write s 0 _).trans (write _ 1 _)).trans (write _ 4 _)).trans (write _ 5 _)

theorem State.Steering.chargeMeter (g : s.Steering r H F B) (w : Option SteerEntry) (n : Nat) :
    (s.chargeMeter w n).1.Steering r H F B := by
  unfold State.chargeMeter
  split
  · exact g
  · exact g.apart ⟨rfl, rfl, rfl, rfl, fun q => by cases q <;> rfl, rfl, rfl, rfl, rfl⟩ rfl (fun p => by cases p <;> rfl) rfl

theorem State.Steering.bumpCounter (g : s.Steering r H F B) (w : Option SteerEntry) (n : Nat) :
    (s.bumpCounter w n).Steering r H F B := by
  unfold State.bumpCounter
  split
  · exact g
  · exact g.apart ⟨rfl, rfl, rfl, rfl, fun q => by cases q <;> rfl, rfl, rfl, rfl, rfl⟩ rfl (fun p => by cases p <;> rfl) rfl

theorem State.chargeMeter_queues (s : State) (w : Option SteerEntry) (n : Nat) (q : Port) :
    (s.chargeMeter w n).1.queues q = s.queues q := by
  unfold State.chargeMeter
  split
  · rfl
  · cases q <;> rfl

theorem State.bumpCounter_queues (s : State) (w : Option SteerEntry) (n : Nat) (q : Port) :
    (s.bumpCounter w n).queues q = s.queues q := by
  unfold State.bumpCounter
  split
  · rfl
  · cases q <;> rfl

theorem State.Steering.steerByTables (g : s.Steering r H F B) (free : ∀ q, (s.queues q).frames.count r = 0) (x : Port)
    (kind : FrameKind) (h : Header) (own : Station) (up : TrunkPort) : (s.steerByTables r x kind h own up).Order H F B := by
  unfold State.steerByTables
  dsimp only
  refine State.Steering.finishPlacement (State.Steering.placeAll (State.Steering.flows ?_ (State.apart_storeSteered _ r _)
    (State.flows_storeSteered _ r _)) (fun q => ?_) _ _ _)
  · split
    · exact g.chargeMeter _ _
    · exact (g.chargeMeter _ _).bumpCounter _ _
  · rw [(State.apart_storeSteered _ r _).queues]
    split
    · rw [State.chargeMeter_queues]
      exact free q
    · rw [State.bumpCounter_queues, State.chargeMeter_queues]
      exact free q

theorem State.Steering.carryThrough (g : s.Steering r H F B) (free : ∀ q, (s.queues q).frames.count r = 0) (x : Port)
    (kind : FrameKind) (h : Header) : (s.carryThrough r x kind h).Order H F B := by
  unfold State.carryThrough
  split
  · exact (g.place _ (free _)).finishPlacement
  · split
    · exact (g.placeRequest _).finishPlacement
    · exact g.finishPlacement

theorem State.Steering.steerFrame (g : s.Steering r H F B) (free : ∀ q, (s.queues q).frames.count r = 0) (x : Port) :
    (s.steerFrame r x).Order H F B := by
  unfold State.steerFrame
  dsimp only
  split
  · exact g.finishPlacement
  · split
    · split
      · unfold State.steerNumbering
        split
        · exact g.placeEnum.finishPlacement
        · exact (g.place _ (free _)).finishPlacement
      · exact g.finishPlacement
    · split
      · next p _ _ => exact (g.flows (s.apart_raiseTrunk p _) (s.flows_raiseTrunk p _)).finishPlacement
      · split
        · exact g.carryThrough free x _ _
        · exact g.steerByTables free x _ _ _ _

/-- A frame taken off a backlog. -/
theorem State.Order.steering {rest : List Nat} (o : s.Order H F B) (h : s.backlog q = r :: rest) :
    State.Steering { s.setBacklog q rest with steer := { (s.setBacklog q rest).steer with lastServed := q } } r H F B ∧
        s.kept H r = 0 := by
  have books : State.Books { s.setBacklog q rest with steer := { (s.setBacklog q rest).steer with lastServed := q } } H
      (F ++ s.filling) (r :: B) := by
    refine o.books.same (by cases q <;> rfl) (by cases q <;> rfl) (by cases q <;> rfl) (fun x => by cases q <;> rfl)
      (fun x => by cases q <;> rfl) (fun x => by cases q <;> rfl) (fun _ => rfl) (fun x => ?_) (fun y => ?_)
    · have set := s.count_backlogged q rest x
      rw [h, count_cons_if] at set
      show (s.setBacklog q rest).backlogged.count x + (r :: B).count x = s.backlogged.count x + B.count x
      rw [count_cons_if]
      omega
    · have same : (State.queues { s.setBacklog q rest with steer := { (s.setBacklog q rest).steer with lastServed := q } } y) =
          s.queues y := by cases q <;> cases y <;> rfl
      rw [same]
      exact o.books.single y
  have listed : s.waits B r ≠ 0 := by
    have set := s.count_backlogged q rest r
    rw [h, List.count_cons_self] at set
    have := List.count_eq_zero (a := r) (l := s.backlogged)
    unfold State.waits
    have part : (s.backlog q).count r ≤ s.backlogged.count r := by
      have none := s.count_backlogged q [] r
      rw [List.count_nil] at none
      omega
    rw [h, List.count_cons_self] at part
    omega
  have own := o.books.used (.inr (.inr listed))
  have placed := o.books.placed r own
  have unkept : s.kept H r = 0 := by
    by_contra e
    rw [if_neg e] at placed
    omega
  refine ⟨⟨?_, ?_, ?_⟩, unkept⟩
  · have filling : State.filling { s.setBacklog q rest with steer := { (s.setBacklog q rest).steer with lastServed := q } } =
        s.filling := by cases q <;> rfl
    rw [filling]
    exact books.given_waiting
  · exact o.inPlace.of_entriesStay (State.entriesStay_of_queues fun y => by cases q <;> cases y <;> rfl)
      (fun p => by cases q <;> cases p <;> rfl) (by cases q <;> rfl)
  · have record : State.record { s.setBacklog q rest with steer := { (s.setBacklog q rest).steer with lastServed := q } } r =
        s.record r := by cases q <;> rfl
    have unfilled : (F ++ s.filling).count r = 0 := by omega
    rw [record, o.books.state r own, unfilled, if_neg zero_not_ne]
    split <;> nofun

theorem State.Order.lookup (o : s.Order H F B) : s.lookup.Order H F B := by
  unfold State.lookup
  split
  · exact o
  · next q hq =>
    split
    · exact o
    · next r rest hr =>
      obtain ⟨steering, unkept⟩ := o.steering hr
      refine steering.steerFrame (fun y => ?_) q
      have same : (State.queues { s.setBacklog q rest with steer := { (s.setBacklog q rest).steer with lastServed := q } } y) =
          s.queues y := by cases q <;> cases y <;> rfl
      rw [same]
      exact State.frames_of_entered (State.entered_of_kept unkept) y

/-! ### Numbering -/

/-- A frame of the node's own admitted, filled and placed, or released at once (R24). -/
theorem State.Order.sendNumbering (o : s.Order H F B) (p : TrunkPort) (h : Header) (x : List Byte) :
    (s.sendNumbering p h x).Order H F B := by
  unfold State.sendNumbering
  split
  · exact o
  · next r v hv =>
    have filled := (o.askRoom hv).fill r 0 (encodeHeader h ++ x)
    generalize v.fill r 0 (encodeHeader h ++ x) = z at filled
    have given := filled.books.given_filling.place 0
        (State.frames_of_entered (State.entered_of_kept filled.books.kept_filling) (portOf p))
    have flows := (z.flows_place (portOf p) 0 r).trans (State.flows_releaseUnheld _ r)
    exact filled.flows flows given.releaseUnheld

theorem State.Order.sendEnumEnd (o : s.Order H F B) (p : TrunkPort) (last : Station) (x : EndStatus) (run : Half) :
    (s.sendEnumEnd p last x run).Order H F B := (o.sendNumbering p _ _).raiseEvent _ _ _

theorem State.Order.passOn (o : s.Order H F B) (p : TrunkPort) (own : Station) (force : Bool) (run : Half) :
    (s.passOn p own force run).Order H F B := by
  unfold State.passOn
  split
  · exact o.sendNumbering _ _ _
  · exact o.sendEnumEnd _ _ _ _

theorem State.Order.takeNumber (o : s.Order H F B) (p : TrunkPort) (x : EnumOffer) : (s.takeNumber p x).Order H F B := by
  have numbered : State.Order { s with numbering := .numbered x.next p } H F B :=
    o.apart ⟨rfl, rfl, rfl, rfl, fun q => by cases q <;> rfl, rfl, rfl, rfl, rfl⟩ rfl (fun p => by cases p <;> rfl) rfl
  exact (numbered.raiseEvent _ _ _).passOn _ _ _ _

theorem State.Order.handleOffer (o : s.Order H F B) (p : TrunkPort) (x : EnumOffer) : (s.handleOffer p x).Order H F B := by
  unfold State.handleOffer
  split
  · split
    · exact o.passOn _ _ _ _
    · exact o.raiseTrunk p _
  · split
    · exact o.sendEnumEnd _ _ _ _
    · exact o.takeNumber p x

theorem State.Order.handleEnum (o : s.Order H F B) (r : Nat) : (s.handleEnum r).Order H F B := by
  unfold State.handleEnum
  split
  · exact o.handleOffer _ _
  · exact o

theorem State.pickEnum_mem (h : s.pickEnum = some (r, t)) : r ∈ s.enums ∧ (t = s ∨ t = { s with choices := s.choices + 1 }) := by
  unfold State.pickEnum at h
  split at h
  · cases h
  · next x hx =>
    cases h
    rw [hx]
    exact ⟨List.mem_singleton_self _, .inl rfl⟩
  · next x rest _ hx =>
    cases h
    rw [hx]
    refine ⟨?_, .inr rfl⟩
    have low : Config.pick s.choices % (rest.length + 1) < (x :: rest).length := Nat.mod_lt _ (Nat.succ_pos _)
    rw [List.getD_eq_getElem _ _ low]
    exact List.getElem_mem low

theorem State.Order.enumHandling (o : s.Order H F B) : s.enumHandling.Order H F B := by
  unfold State.enumHandling
  split
  · exact o
  · next r v hv =>
    obtain ⟨mem, hv⟩ := State.pickEnum_mem hv
    have chosen : v.Order H F B ∧ r ∈ v.enums := by
      rcases hv with rfl | rfl
      · exact ⟨o, mem⟩
      · exact ⟨o.chosen, mem⟩
    obtain ⟨ov, mem⟩ := chosen
    have taken : State.Order { v with enums := v.enums.erase r } (r :: H) F B := by
      refine ov.setAside v.mgmt (v.enums.erase r) fun x => ?_
      have gone := (List.perm_cons_erase mem).count_eq x
      rw [count_cons_if] at gone
      rw [count_cons_if]
      unfold State.heldAside
      omega
    exact (taken.handleEnum r).dropRef

end Sys2Proof.Machine

end

section
/-! Management and the resets keep the books. -/

namespace Sys2Proof.Machine

variable {s t u : State} {H H' F B : List Nat} {r : Nat} {q : Port} {p : TrunkPort}

/-! ### Requests and responses -/

theorem State.Order.raiseMgmt (o : s.Order H F B) (k : MgmtStat) : (s.raiseMgmt k).Order H F B :=
  o.setAside _ s.enums fun _ => rfl

theorem State.Order.setExecutor (o : s.Order H F B) (x : Executor) : (s.setExecutor x).Order H F B :=
  o.setAside _ s.enums fun _ => rfl

/-- The request at the head of M leaves it with its reference (R147). -/
theorem State.Order.endRequest (o : s.Order H F B) : s.endRequest.Order H F B := by
  unfold State.endRequest
  split
  · exact o
  · next x rest h =>
    refine State.Order.dropRef (o.setAside { s.mgmt with queue := rest } s.enums fun y => ?_)
    unfold State.heldAside
    rw [h, List.map_cons, count_cons_if, count_cons_if]
    show (rest.map Request.frame).count y + s.enums.count y + (s.mgmt.cache.map CacheEntry.frame).count y + _ = _
    omega

/-- A cached response leaves the cache with its reference. -/
theorem State.Order.uncache {c : CacheEntry} {l : List CacheEntry} (o : s.Order H F B) (h : s.mgmt.cache.Perm (c :: l)) :
    ((s.setCache l).dropRef c.frame).Order H F B := by
  refine State.Order.dropRef (o.setAside { s.mgmt with cache := l } s.enums fun y => ?_)
  have gone := (h.map CacheEntry.frame).count_eq y
  rw [List.map_cons, count_cons_if] at gone
  unfold State.heldAside
  rw [count_cons_if, gone]
  show (s.mgmt.queue.map Request.frame).count y + s.enums.count y + (l.map CacheEntry.frame).count y + _ = _
  omega

theorem State.Order.evict (o : s.Order H F B) : s.evict.Order H F B := by
  unfold State.evict
  split
  · exact o
  · next c rest h => exact o.uncache (by rw [h])

/-- The cache in another order. -/
theorem State.Order.reorder {l : List CacheEntry} (o : s.Order H F B) (h : s.mgmt.cache.Perm l) : (s.setCache l).Order H F B := by
  refine o.setAside { s.mgmt with cache := l } s.enums fun y => ?_
  have same := (h.map CacheEntry.frame).count_eq y
  unfold State.heldAside
  rw [same]

/-- A record's arrival time written anew. -/
theorem State.Order.setArrival (o : s.Order H F B) (r : Nat) (x : Time) :
    (s.setRecord r { s.record r with arrival := x }).Order H F B := by
  have record : ∀ y, (s.setRecord r { s.record r with arrival := x }).record y =
      { s.record y with arrival := ((s.setRecord r { s.record r with arrival := x }).record y).arrival } := fun y => by
    rw [State.record_setRecord]
    split
    · next h => rw [h]
    · rfl
  refine ⟨?_, o.inPlace.of_entriesStay (s.entriesStay_setRecord r _) (fun p => by cases p <;> rfl) rfl⟩
  refine o.books.of_sameRoom ⟨rfl, rfl, rfl, fun y => by rw [record], fun y => by rw [record], fun y => by rw [record]⟩
    (fun y hy => ?_) o.books.placed (fun y hy => ?_) o.books.unheld (fun y => ?_)
  · rw [record]
    exact o.books.refs y hy
  · rw [record, State.isQueued_setRecord]
    exact o.books.state y hy
  · rw [State.queues_setRecord]
    exact o.books.single y

/-- A cached response placed again (R159). -/
theorem State.Order.replay {c : CacheEntry} (o : s.Order H F B) (h : c ∈ s.mgmt.cache) : (s.replay c).Order H F B := by
  unfold State.replay
  split
  · exact o
  · next q _ =>
    split
    · exact o.raiseMgmt _
    · next held =>
      split
      · next room =>
        have kept : s.kept H c.frame ≠ 0 := by
          have := List.count_pos_iff.mpr (List.mem_map_of_mem (f := CacheEntry.frame) h)
          unfold State.kept State.heldAside
          omega
        have free : (s.queues q).frames.count c.frame = 0 := by
          rw [List.count_eq_zero, QueueSet.mem_frames]
          exact held
        have placed : (s.enqueue q 0 c.frame).Order H F B := by
          have flows := s.flows_place q 0 c.frame
          rw [State.place_taken room] at flows
          exact o.flows flows ((o.books.given_held kept).enqueue 0 free)
        exact (placed.setArrival c.frame s.nodeTime).raiseMgmt _
      · have flows := s.flows_place q 0 c.frame
        have skipped := s.place_skipped (q := q) (c := 0) (by simpa using ‹¬ s.canPlace q 0 = true›) c.frame
        rw [skipped] at flows
        exact o.flows flows ((s.apart_raiseSkip q).books o.books)

theorem State.Order.startRequest (o : s.Order H F B) (x : Request) : (s.startRequest x).Order H F B := by
  unfold State.startRequest
  dsimp only
  split
  · next c hc =>
    have mem : c ∈ s.mgmt.cache := List.mem_of_find?_eq_some hc
    have moved : s.mgmt.cache.Perm (s.mgmt.cache.erase c ++ [c]) :=
      (List.perm_cons_erase mem).trans (List.perm_append_singleton c _).symm
    exact ((o.reorder moved).replay (c := c) (List.mem_append_right _ (List.mem_singleton_self c))).endRequest
  · split
    · exact (o.raiseMgmt _).setExecutor _
    · exact o.setExecutor _

/-! ### The hand-over of a response -/

theorem State.Order.admitResponse (len n : Nat) : ∀ {s : State}, s.Order H F B →
    (s.admitResponse len n).2.Order H ((s.admitResponse len n).1.toList ++ F) B := by
  induction n with
  | zero => exact fun o => o
  | succ n ih =>
    intro s o
    unfold State.admitResponse
    split
    · next r v hv => exact o.askRoom hv
    · split
      · exact o
      · exact ih o.evict

/-- The response, in hand, comes to be held by the cache, which makes way for it. -/
theorem State.Order.cacheResponse {c : CacheEntry} (g : s.Given c.frame [] s.filling []) (h : s.InPlace) :
    (s.cacheResponse c).Order [] [] [] := by
  have kept : ∀ x, (s.retained c.frame).kept [c.frame] x = s.kept [] x + if x = c.frame then 1 else 0 := fun x => by
    show s.entered x + s.heldAside x + List.count x [c.frame] = s.entered x + s.heldAside x + 0 + _
    rw [count_cons_if, List.count_nil]
    omega
  have retained : (s.retained c.frame).Order [c.frame] [] [] := by
    refine ⟨?_, h.of_entriesStay (s.entriesStay_setRecord _ _) (fun p => by cases p <;> rfl) rfl⟩
    show (s.retained c.frame).Books [c.frame] s.filling []
    refine g.moved (s.rebooked_setRecord c.frame _ _) (fun x hx => ?_) (fun _ _ => rfl) rfl ?_ ?_ ?_ (fun y => ?_)
    · exact (kept x).trans (by rw [if_neg hx, Nat.add_zero])
    · rw [State.retained, State.record_setRecord_same, g.refs]
      exact ((kept c.frame).trans (by rw [if_pos rfl])).symm
    · show (s.retained c.frame).kept [c.frame] c.frame ≠ 0
      rw [kept, if_pos rfl]
      omega
    · rw [State.retained, State.record_setRecord_same, State.isQueued_setRecord]
    · obtain ⟨-, -, F', B', k, -, -⟩ := g
      rw [State.retained, State.queues_setRecord]
      exact k.single y
  have way : ((s.retained c.frame).makeWay c.requester).Order [c.frame] [] [] := by
    unfold State.makeWay
    split
    · next old hold => exact retained.uncache (List.perm_cons_erase (List.mem_of_find?_eq_some hold))
    · split
      · exact retained
      · exact retained.evict
  rw [State.cacheResponse_eq]
  generalize (s.retained c.frame).makeWay c.requester = v at way
  refine way.setAside { v.mgmt with cache := v.mgmt.cache ++ [c] } v.enums fun x => ?_
  have own : ([c].map CacheEntry.frame).count x = [c.frame].count x := rfl
  show (v.mgmt.queue.map Request.frame).count x + v.enums.count x + ((v.mgmt.cache ++ [c]).map CacheEntry.frame).count x + 0 =
    (v.mgmt.queue.map Request.frame).count x + v.enums.count x + (v.mgmt.cache.map CacheEntry.frame).count x + [c.frame].count x
  rw [List.map_append, List.count_append, own]
  omega

theorem State.Order.respond (o : s.Order [] [] []) (e : Execution) : (s.respond e).1.Order [] [] [] := by
  have admitted := State.Order.admitResponse (responsePayload e.id e.malformed e.done).length (s.mgmt.cache.length + 1) o
  unfold State.respond
  dsimp only
  split
  · next r v hv =>
    rw [hv] at admitted
    have filled := State.Order.fill (s := v) (F := [r]) admitted r 0
      (encodeHeader
          (v.responseHeader e (responsePayload e.id e.malformed e.done).length) ++ responsePayload e.id e.malformed e.done)
    dsimp only
    generalize v.fill r 0 _ = z at filled
    have flows := z.flows_placeByDest e.requester r
    refine State.Order.cacheResponse (c := { requester := e.requester, id := e.id, frame := r }) ?_ (filled.inPlace.flows flows)
    rw [flows.filling]
    exact State.Given.placeByDest (F := z.filling) (State.Books.given_filling filled.books) e.requester
      (State.Books.kept_filling filled.books)
  · next v hv =>
    rw [hv] at admitted
    exact (State.Order.raiseMgmt (s := v) (F := []) admitted .responsesDropped).raiseEvent _ _ _

theorem State.Order.handOver (o : s.Order [] [] []) (e : Execution) : (s.handOver e).Order [] [] [] := by
  unfold State.handOver
  dsimp only
  refine ((State.Order.respond ?_ e).endRequest).setExecutor _
  split
  · exact o
  · exact o.raiseMgmt _

/-! ### The traffic reset -/

/-- Local ingress fills no record after a reset (R183). -/
theorem ingressAfterReset_record? (x : Ingress) : (ingressAfterReset x).record? = none := by
  cases x with
  | waitRoom h n =>
    unfold ingressAfterReset
    dsimp only
    split <;> rfl
  | _ => rfl

theorem State.Order.resetIngress (o : s.Order H F B) : s.resetIngress.Order H F B :=
  (o.setIngress (y := none) rfl (ingressAfterReset_record? s.loc.ingress)).abandon

theorem State.Order.foldl_release (l : List Nat) :
    ∀ {s : State}, s.Order H F (l ++ B) → (l.foldl State.release s).Order H F B := by
  induction l with
  | nil => exact fun o => o
  | cons r l ih => exact fun o => ih (State.Order.release_waiting o)

theorem State.Order.foldl_dropRef (l : List Nat) :
    ∀ {s : State}, s.Order (l ++ H) F B → (l.foldl State.dropRef s).Order H F B := by
  induction l with
  | nil => exact fun o => o
  | cons r l ih => exact fun o => ih (State.Order.dropRef o)

/-- Every frame of a backlog given back (R25). -/
theorem State.Order.resetBacklog (o : s.Order H F B) (q : Port) : (s.resetBacklog q).Order H F B := by
  refine State.Order.foldl_release (s.backlog q) ⟨?_, ?_⟩
  · have filling : (s.setBacklog q []).filling = s.filling := by cases q <;> rfl
    rw [filling]
    refine o.books.same (by cases q <;> rfl) (by cases q <;> rfl) (by cases q <;> rfl) (fun x => by cases q <;> rfl)
      (fun x => by cases q <;> rfl) (fun x => by cases q <;> rfl) (fun _ => rfl) (fun x => ?_) (fun y => ?_)
    · have set := s.count_backlogged q [] x
      rw [List.count_nil] at set
      unfold State.waits
      rw [List.count_append]
      omega
    · have same : (s.setBacklog q []).queues y = s.queues y := by cases q <;> cases y <;> rfl
      rw [same]
      exact o.books.single y
  · exact o.inPlace.of_entriesStay (State.entriesStay_of_queues fun y => by cases q <;> cases y <;> rfl)
      (fun p => by cases q <;> cases p <;> rfl) (by cases q <;> rfl)

theorem State.Order.resetRequests (o : s.Order H F B) : s.resetRequests.Order H F B := by
  refine State.Order.foldl_dropRef _ (o.setAside { s.mgmt with queue := [] } s.enums fun x => ?_)
  unfold State.heldAside
  rw [List.count_append]
  show 0 + s.enums.count x + (s.mgmt.cache.map CacheEntry.frame).count x + _ = _
  omega

theorem State.Order.resetEnums (o : s.Order H F B) : s.resetEnums.Order H F B := by
  refine State.Order.foldl_dropRef _ (o.setAside s.mgmt [] fun x => ?_)
  unfold State.heldAside
  rw [List.count_append]
  show _ + 0 + _ + _ = _
  omega

theorem State.cutEgress_cases (s : State) : (s.cutEgress = s ∧ ∀ e k, s.loc.egress ≠ .transfer e k) ∨
    ∃ x, s.cutEgress = s.chosen.setEgress (.aborting x) := by
  unfold State.cutEgress
  split
  · exact .inr ⟨_, rfl⟩
  · next h => exact .inl ⟨rfl, h⟩

/-- Local egress at a traffic reset (R184, R89): the transfer goes on only of the exempt response, whose entry stays. -/
theorem State.Order.resetEgress (o : s.Order H F B) (w : Watched) : (s.resetEgress w).Order H F B := by
  have cut : ∀ b : Bool, (∀ e k, s.loc.egress = .transfer e k → b = false → isExempt w .l e = true) →
      ((if b then s.cutEgress else s).removeEntries .l (fun e => !isExempt w .l e)).Order H F B := by
    intro b hb
    cases b with
    | false =>
      refine State.Order.removeEntries o _ (fun p e hp => by cases p <;> cases hp) fun e k _ he => ?_
      rw [hb e k he rfl]
      rfl
    | true =>
      rw [if_pos rfl]
      rcases s.cutEgress_cases with ⟨e, none⟩ | ⟨x, e⟩ <;> rw [e]
      · exact o.removeEntries _ (fun p e hp => by cases p <;> cases hp) fun e k _ he => absurd he (none e k)
      · exact (o.chosen.setEgress (x := .aborting x) nofun).removeEntries _ (fun p e hp => by cases p <;> cases hp)
          fun e k _ => nofun
  unfold State.resetEgress
  dsimp only
  refine cut _ fun e k he => ?_
  rw [he]
  intro h
  simpa using h

theorem State.Order.resetTx (o : s.Order H F B) (p : TrunkPort) (w : Watched) : (s.resetTx p w).Order H F B := by
  unfold State.resetTx
  split
  · exact o.onTx_none p _ rfl
  · split
    · split
      · exact o.onTx p _ rfl
      · exact o
    · exact o.leaveFlight p

/-- A frame in flight after the transmitter's part of a traffic reset is the exempt response. -/
theorem Transmitter.reset_exempt {x : Transmitter} {w : Watched} {e : Entry} (h : (x.reset p w).inFlight = some e) :
    isExempt w (portOf p) e = true := by
  unfold Transmitter.reset at h
  split at h
  · cases h
  · next d hd =>
    split at h
    · next exempt =>
      split at h
      · rw [show x.suspended.inFlight = x.inFlight from rfl, hd] at h
        cases h
        exact exempt
      · rw [hd] at h
        cases h
        exact exempt
    · cases h

theorem State.Order.resetSender (o : s.Order H F B) (p : TrunkPort) (w : Watched) : (s.resetSender p w).Order H F B := by
  have emptied : ((s.resetTx p w).removeEntries (portOf p) (fun e => !isExempt w (portOf p) e)).Order H F B := by
    refine (o.resetTx p w).removeEntries _ (fun y e hy he => ?_) fun e k hp => by cases p <;> cases hp
    cases portOf_injective hy
    rw [State.resetTx_tx] at he
    rw [Transmitter.reset_exempt he]
    rfl
  unfold State.resetSender
  dsimp only
  split
  · exact emptied.resume p
  · exact emptied

theorem State.Order.refilled (o : s.Order H F B) : s.refilled.Order H F B :=
  o.apart ⟨rfl, rfl, rfl, rfl, fun q => by cases q <;> rfl, rfl, rfl, rfl, rfl⟩ rfl (fun p => by cases p <;> rfl) rfl

/-- A traffic reset (R165), block by block. -/
theorem State.Order.trafficReset (o : s.Order [] [] []) (w : Watched) : (s.trafficReset w).Order [] [] [] := by
  have pending : s.endPending.Order [] [] [] := o.setAside _ s.enums fun _ => rfl
  have receivers : s.receiversReset.Order [] [] [] := ((pending.resetRx .a).resetRx .b).resetIngress
  have backlogs : s.receiversReset.backlogsReset.Order [] [] [] := ((receivers.resetBacklog .a).resetBacklog .b).resetBacklog .l
  have holders : s.receiversReset.backlogsReset.holdersReset.Order [] [] [] := backlogs.resetRequests.resetEnums
  have before : (s.beforeSenders w).Order [] [] [] := (holders.resetEgress w).refilled
  rw [State.trafficReset_eq]
  generalize s.beforeSenders w = v at before
  exact ((before.resetSender .a w).resetSender .b w).raiseEvent _ _ _

/-! ### The resets that empty the store -/

/-- The pages' bytes, the events, the waiting commands and the numbering of free choices are in no book. -/
theorem State.Order.rewritten (o : s.Order H F B) (m : Memory) (e : EventQueue) (n : Nat) (l : List Instr) :
    State.Order { s with store := { s.store with mem := m }, events := e, choices := n, pending := l } H F B :=
  o.apart ⟨rfl, rfl, rfl, rfl, fun q => by cases q <;> rfl, rfl, rfl, rfl, rfl⟩ rfl (fun p => by cases p <;> rfl) rfl

theorem State.Order.poweredUp (s : State) (cause : Half) : (s.poweredUp cause).Order [] [] [] :=
  (State.reset.storeSound_iff_order.mp State.storeSound_reset).rewritten _ _ _ _

theorem State.Order.fullReset (s : State) : s.fullReset.Order [] [] [] := by
  have up := State.Order.poweredUp s.cutEgress (causeCode .full)
  have idle : (s.cutEgress.poweredUp (causeCode .full)).loc.ingress.record? = none := rfl
  have cut : ∀ e k, s.cutEgress.loc.egress ≠ .transfer e k := by
    rcases s.cutEgress_cases with ⟨e, none⟩ | ⟨x, e⟩ <;> rw [e]
    · exact none
    · exact nofun
  unfold State.fullReset
  dsimp only
  generalize s.cutEgress.poweredUp (causeCode .full) = v at up idle
  exact (up.setIngress_none idle (ingressAfterReset_record? s.loc.ingress)).setEgress fun e k h => absurd h (cut e k)

theorem State.Order.performReset (o : s.Order [] [] []) (x : PendingReset) : (s.performReset x).Order [] [] [] := by
  unfold State.performReset
  split
  · exact o.trafficReset _
  · exact .fullReset s

theorem State.Order.settle (o : s.Order [] [] []) : s.settle.Order [] [] [] := by
  unfold State.settle
  split
  · split
    · exact o.performReset _
    · exact o
  · exact o

end Sys2Proof.Machine

end

section
/-! Every step keeps the books of the frame store (R26, R28, R29, R35, R38 to R40, R63, R66, R181). -/

namespace Sys2Proof.Machine

variable {s t u : State} {H F B : List Nat} {p : TrunkPort} {P : State → Prop}

/-! ### The commands of a request -/

/-- Where a command's checks pass, its effect leaves a state with a promise. -/
def Verdict.Leaves (P : State → Prop) : Verdict → Prop
  | .fail _ => True
  | .pass _ _ t => P t

/-- An operation on parts that are in no book and hold no frame in transit. -/
theorem State.Order.aside (o : s.Order H F B) (hs : t.store = s.store) (ha : t.trunkA = s.trunkA) (hb : t.trunkB = s.trunkB)
    (hl : t.loc = s.loc) (he : t.enums = s.enums) (hm : t.mgmt = s.mgmt) (ht : t.backlogged = s.backlogged) : t.Order H F B := by
  have trunk : ∀ p, t.trunk p = s.trunk p := fun p => by cases p <;> assumption
  refine o.apart ⟨by rw [hs], by rw [hs], by rw [hs], by rw [hs], fun q => ?_, ht, by rw [hm], he, by rw [hm]⟩ ?_
    (fun p => ?_) (by rw [hl])
  · cases q
    · exact congrArg Trunk.queues ha
    · exact congrArg Trunk.queues hb
    · exact congrArg LocalPort.queues hl
  · unfold State.filling
    rw [ha, hb, hl]
  · exact congrArg (fun x => x.tx.inFlight) (trunk p)

theorem State.Order.setSession (o : s.Order H F B) (x : Session) : State.Order { s with session := x } H F B :=
  o.aside rfl rfl rfl rfl rfl rfl rfl

theorem State.Order.setShadow (o : s.Order H F B) (b : Bank) : (s.setShadow b).Order H F B := by
  unfold State.setShadow
  split <;> exact o.aside rfl rfl rfl rfl rfl rfl rfl

theorem State.Order.writeParam (o : s.Order H F B) (n v : Nat) :
    (s.writeParam n v).Order H F B := o.aside rfl rfl rfl rfl rfl rfl rfl

theorem State.Order.answerCmd (o : s.Order H F B) (e : Execution) (c : Cmd) (rest : List Cmd) (r : CmdResult) (data : List Byte)
    (reset : Option ResetScope) : (s.answerCmd e c rest r data reset).Order H F B := by
  have answered : State.Order { s with mgmt := { s.mgmt with executor := .executing (e.answered c rest r data reset) } } H F B :=
    o.setExecutor _
  unfold State.answerCmd
  generalize ({ s with mgmt := { s.mgmt with executor := .executing (e.answered c rest r data reset) } } : State) = v at answered
  unfold State.touchTimer
  split
  · exact answered.setSession _
  · exact answered

/-- A command taken keeps the books where its effect does. -/
theorem State.Order.runCommand (o : s.Order [] [] []) (takes : Cmd → Bool) (body : Call → State → Verdict)
    (hb : ∀ c, (body c s).Leaves fun t => t.Order [] [] []) : (runCommand takes body s).Order [] [] [] :=
  runCommand_keeps (P := fun t => t.Order [] [] []) takes body
      (fun _ e c rest r data reset k => k.answerCmd e c rest r data reset)
    (fun call _ _ _ t _ _ h => by
      have left := hb call
      rw [h] at left
      exact left) o

theorem Verdict.Leaves.readBank (h : P s) (c : Call) (m n : Nat) (f : Bank → Nat → List Byte) :
    (readBank c s m n f).Leaves P := by
  unfold Machine.readBank
  dsimp only
  split
  · trivial
  · split
    · trivial
    · split
      · trivial
      · split
        · trivial
        · exact h

theorem Verdict.Leaves.bodyReadMeter (h : P s) (c : Call) : (bodyReadMeter c s).Leaves P := by
  unfold Machine.bodyReadMeter
  dsimp only
  split
  · trivial
  · split
    · trivial
    · exact h

theorem Verdict.Leaves.bodyReadParam (h : P s) (c : Call) : (bodyReadParam c s).Leaves P := by
  unfold Machine.bodyReadParam
  split
  · trivial
  · exact h

theorem Verdict.Leaves.bodyWriteMeter (o : s.Order H F B) (c : Call) : (bodyWriteMeter c s).Leaves fun t => t.Order H F B := by
  unfold Machine.bodyWriteMeter
  split
  · trivial
  · split
    · trivial
    · split
      · trivial
      · exact o.aside rfl rfl rfl rfl rfl rfl rfl

theorem State.Order.clearCounter (o : s.Order H F B) (g : Group) (n : Nat) : (s.clearCounter g n).Order H F B := by
  cases g
  · exact o.aside rfl rfl rfl rfl rfl rfl rfl
  · exact o.apart ⟨rfl, rfl, rfl, rfl, fun q => by cases q <;> rfl, rfl, rfl, rfl, rfl⟩ rfl (fun p => by cases p <;> rfl) rfl
  · exact o.apart ⟨rfl, rfl, rfl, rfl, fun q => by cases q <;> rfl, rfl, rfl, rfl, rfl⟩ rfl (fun p => by cases p <;> rfl) rfl
  · exact o.apart ⟨rfl, rfl, rfl, rfl, fun q => by cases q <;> rfl, rfl, rfl, rfl, rfl⟩ rfl (fun p => by cases p <;> rfl) rfl
  · exact o.setAside _ s.enums fun _ => rfl

theorem State.Order.clearCounters (g : Group) (n : Nat) (l : List Nat) : ∀ {s : State}, s.Order H F B →
    (l.foldl (fun t i => t.clearCounter g (n + i)) s).Order H F B := by
  induction l with
  | nil => exact fun o => o
  | cons i l ih => exact fun o => ih (o.clearCounter g (n + i))

theorem Verdict.Leaves.bodyReadCounters (o : s.Order H F B) (c : Call) :
    (bodyReadCounters c s).Leaves fun t => t.Order H F B := by
  unfold Machine.bodyReadCounters
  dsimp only
  split
  · trivial
  · next g _ =>
    split
    · trivial
    · split
      · trivial
      · split
        · trivial
        · split
          · trivial
          · show State.Order (ite _ _ _) H F B
            split
            · exact o.clearCounters g _ _
            · exact o

theorem Verdict.Leaves.writeChecked {effect : State → Nat → Nat → State} (c : Call)
    (h : P (effect s (c.arg 0).toNat (halfAt c.args 1).toNat)) : (writeChecked effect c s).Leaves P := by
  unfold Machine.writeChecked
  dsimp only
  split
  · trivial
  · split
    · trivial
    · split
      · trivial
      · exact h

/-- A port switched on or off (R97). -/
theorem State.Order.writeEnable (o : s.Order [] [] []) (hs : s.receiversSound = true) (n v : Nat) :
    (s.writeEnable n v).Order [] [] [] := by
  have sound : (s.writeParam n v).receiversSound = true := hs
  unfold State.writeEnable
  generalize (if n = 17 then TrunkPort.a else .b) = p
  dsimp only
  split
  · exact o
  · split
    · exact (o.writeParam n v).onLink p _
    · exact (o.writeParam n v).switchOff sound p

theorem State.Order.carryOut (o : s.Order H F B) (p : TrunkPort) (d : Disposition) : (s.carryOut p d).Order H F B := by
  cases d with
  | retry =>
    show (s.releaseRetry p).Order H F B
    unfold State.releaseRetry
    dsimp only
    split
    · exact (o.onTx p _ rfl).startCopy p
    · exact (o.onTx p _ rfl).onTx p _ rfl
  | drop => exact o.leaveFlight p
  | flush => exact o.removeWithFlight p _

theorem Verdict.Leaves.bodyRelease (o : s.Order H F B) (d : Disposition) (c : Call) :
    (bodyRelease d c s).Leaves fun t => t.Order H F B := by
  unfold Machine.bodyRelease
  split
  · trivial
  · next p _ =>
    split
    · trivial
    · split
      · trivial
      · split
        · trivial
        · exact (o.carryOut p d).raiseEvent _ _ _

theorem Verdict.Leaves.bodyReadEvents (o : s.Order H F B) (c : Call) : (bodyReadEvents c s).Leaves fun t => t.Order H F B := by
  unfold Machine.bodyReadEvents
  dsimp only
  split
  · trivial
  · exact o.aside rfl rfl rfl rfl rfl rfl rfl

theorem Verdict.Leaves.bodyResetNode (h : P s) (c : Call) : (bodyResetNode c s).Leaves P := by
  unfold Machine.bodyResetNode
  split
  · trivial
  · split
    · trivial
    · split
      · trivial
      · exact h

theorem Verdict.Leaves.bodyWriteSteer (o : s.Order H F B) (c : Call) : (bodyWriteSteer c s).Leaves fun t => t.Order H F B := by
  unfold Machine.bodyWriteSteer
  split
  · trivial
  · split
    · trivial
    · exact o.setShadow _

theorem Verdict.Leaves.bodyWriteChmap (o : s.Order H F B) (c : Call) : (bodyWriteChmap c s).Leaves fun t => t.Order H F B := by
  unfold Machine.bodyWriteChmap
  split
  · trivial
  · split
    · trivial
    · exact o.setShadow _

theorem Verdict.Leaves.bodyOpenEdit (o : s.Order H F B) (c : Call) : (bodyOpenEdit c s).Leaves fun t => t.Order H F B := by
  unfold Machine.bodyOpenEdit
  split
  · exact o.setSession _
  · split
    · exact o
    · trivial

theorem Verdict.Leaves.bodyCloseEdit (o : s.Order H F B) (c : Call) : (bodyCloseEdit c s).Leaves fun t => t.Order H F B := by
  unfold Machine.bodyCloseEdit
  split
  · trivial
  · exact o.setSession _

theorem Verdict.Leaves.bodySync (o : s.Order H F B) (c : Call) : (bodySync c s).Leaves fun t => t.Order H F B := by
  unfold Machine.bodySync
  split
  · trivial
  · exact o.setSession _

theorem State.Order.takeCommit (o : s.Order H F B) : s.takeCommit.Order H F B := by
  unfold State.takeCommit
  split
  · exact o
  · split
    · split
      · exact o.answerCmd _ _ _ _ _ _
      · next h =>
        have passed := verdictOf_pass h
        unfold bodyCommit at passed
        split at passed
        · cases passed
        · cases passed
          exact o.setSession _
    · exact o

theorem State.Order.completeCommit (o : s.Order H F B) : s.completeCommit.Order H F B := by
  unfold State.completeCommit
  split
  · exact o
  · split
    · exact (State.Order.raiseEvent (s := s.closeSession) (o.setSession _) _ _ _).answerCmd _ _ _ _ _ _
    · exact o

theorem State.Order.copyStep (o : s.Order H F B) : s.copyStep.Order H F B := by
  unfold State.copyStep
  dsimp only
  exact (o.setShadow _).setSession _

/-! ### Every step -/

/-- Every command keeps the books. -/
theorem State.Order.exec (o : s.Order [] [] []) (hs : s.receiversSound = true) (c : Instr) (h : exec c s = .next t) :
    t.Order [] [] [] := by
  have plain : ∀ u : State, Machine.exec c s = .next u → u.Order [] [] [] → t.Order [] [] [] := by
    intro u e hu
    have ht : u = t := Host.Outcome.next.inj (e.symm.trans h)
    exact ht ▸ hu
  have settled : ∀ u : State, Machine.exec c s = .next u.settle → u.Order [] [] [] → t.Order [] [] [] := fun u e hu =>
    plain _ e hu.settle
  cases c
  case powerOnReset => exact plain _ rfl (.poweredUp s 1)
  case sofReceived p => exact settled _ rfl (o.hear hs p fun _ k h => k.takeSof h p)
  case dataByteReceived p b => exact settled _ rfl (o.hear hs p fun _ k h => k.takeData h p b)
  case eofReceived p => exact settled _ rfl (o.hear hs p fun _ k h => k.takeEof h p)
  case codeErrorReceived p => exact plain _ rfl (o.hearError hs p)
  case ackReceived p n => exact settled _ rfl (o.hear hs p fun _ k _ => k.takeAck p n)
  case nakReceived p n why => exact settled _ rfl (o.hear hs p fun _ k _ => k.takeNak p n why)
  case helloReceived p => exact settled _ rfl (o.hear hs p fun _ k _ => k.takeHello p)
  case idleReceived p => exact settled _ rfl (o.hear hs p fun _ k _ => k)
  case silenceTimeout p => exact settled _ rfl (o.silence hs p)
  case answerSent p => exact plain _ rfl (o.sendAnswer p)
  case lookup => exact plain _ rfl o.lookup
  case bankSwap =>
    by_cases hc : (s.session.swapRequested && !s.session.swapTaken) = true
    · exact plain s.swapBanks (if_pos hc) (o.aside rfl rfl rfl rfl rfl rfl rfl)
    · exact plain s (if_neg hc) o
  case commitComplete => exact plain _ rfl o.completeCommit
  case meterTick => exact plain _ rfl (o.aside rfl rfl rfl rfl rfl rfl rfl)
  case txSelect p =>
    by_cases hc : s.maySelect p = true
    · refine settled _ (if_pos hc) (State.Order.select p _ o ?_)
      simp only [State.maySelect, Bool.and_eq_true, Option.isNone_iff_eq_none] at hc
      obtain ⟨⟨-, free⟩, -⟩ := hc
      exact free
    · exact plain s (if_neg hc) o
  case copyEofSent p =>
    by_cases hc : (s.tx p).state = .sending
    · exact settled _ (if_pos hc) (o.endCopy p)
    · exact plain s (if_neg hc) o
  case ackWaitExpiry p =>
    by_cases hc : (s.tx p).state = .awaitingAck ∧ (s.tx p).timer.isSome = true
    · exact settled _ (if_pos hc) (o.failAttempt p)
    · exact plain s (if_neg hc) o
  case retryWaitExpiry p =>
    by_cases hc : (s.tx p).state = .retryWait ∧ (s.tx p).timer.isSome = true
    · exact settled _ (if_pos hc) (o.retransmit p)
    · exact plain s (if_neg hc) o
  case enumHandling => exact plain _ rfl o.enumHandling
  case sessionTimerExpiry =>
    by_cases hc : s.session.state ≠ .closed ∧ s.session.timer.isSome = true
    · exact plain _ (if_pos hc) (State.Order.raiseEvent (s := s.closeSession) (o.setSession _) _ _ _)
    · exact plain s (if_neg hc) o
  case syncCopyStep =>
    by_cases hc : s.session.state = .syncing
    · exact plain _ (if_pos hc) o.copyStep
    · exact plain s (if_neg hc) o
  case requestStart =>
    have start : Machine.exec .requestStart s = .next s ∨ ∃ q, Machine.exec .requestStart s = .next (s.startRequest q) := by
      show execRequestStart s = _ ∨ ∃ q, execRequestStart s = _
      unfold execRequestStart
      split
      · exact .inr ⟨_, rfl⟩
      · exact .inl rfl
    rcases start with e | ⟨q, e⟩
    · exact plain s e o
    · exact plain _ e (o.startRequest q)
  case info => exact plain _ rfl (o.runCommand _ _ fun _ => o)
  case readSteer => exact plain _ rfl (o.runCommand _ _ fun c => .readBank o c _ _ _)
  case writeSteer => exact plain _ rfl (o.runCommand _ _ fun c => .bodyWriteSteer o c)
  case readChmap => exact plain _ rfl (o.runCommand _ _ fun c => .readBank o c _ _ _)
  case writeChmap => exact plain _ rfl (o.runCommand _ _ fun c => .bodyWriteChmap o c)
  case openEdit => exact plain _ rfl (o.runCommand _ _ fun c => .bodyOpenEdit o c)
  case closeEdit => exact plain _ rfl (o.runCommand _ _ fun c => .bodyCloseEdit o c)
  case sync => exact plain _ rfl (o.runCommand _ _ fun c => .bodySync o c)
  case commit => exact plain _ rfl o.takeCommit
  case editStatus => exact plain _ rfl (o.runCommand _ _ fun _ => o)
  case readMeter => exact plain _ rfl (o.runCommand _ _ fun c => .bodyReadMeter o c)
  case writeMeter => exact plain _ rfl (o.runCommand _ _ fun c => .bodyWriteMeter o c)
  case readCounters => exact plain _ rfl (o.runCommand _ _ fun c => .bodyReadCounters o c)
  case readCountersClear => exact plain _ rfl (o.runCommand _ _ fun c => .bodyReadCounters o c)
  case readParam => exact plain _ rfl (o.runCommand _ _ fun c => .bodyReadParam o c)
  case writeParam => exact plain _ rfl (o.runCommand _ _ fun c => .writeChecked c (o.writeParam _ _))
  case portEnableWrite => exact plain _ rfl (o.runCommand _ _ fun c => .writeChecked c (o.writeEnable hs _ _))
  case attentionMaskWrite =>
    exact plain _ rfl (o.runCommand _ _ fun c => .writeChecked c (o.aside rfl rfl rfl rfl rfl rfl rfl))
  case releasePortRetry => exact plain _ rfl (o.runCommand _ _ fun c => .bodyRelease o _ c)
  case releasePortDrop => exact plain _ rfl (o.runCommand _ _ fun c => .bodyRelease o _ c)
  case releasePortFlush => exact plain _ rfl (o.runCommand _ _ fun c => .bodyRelease o _ c)
  case readEvents => exact plain _ rfl (o.runCommand _ _ fun c => .bodyReadEvents o c)
  case resetNode => exact plain _ rfl (o.runCommand _ _ fun c => .bodyResetNode o c)
  case responseHandover =>
    rcases exec_responseHandover s with e | ⟨x, -, e⟩
    · exact plain s e o
    · exact settled _ e (o.handOver x)
  case resetLimitExpiry =>
    cases hx : s.mgmt.executor with
    | resetPending r => exact plain _ (by simp [Machine.exec, execResetLimitExpiry, hx]) (o.performReset r)
    | idle => exact plain s (by simp [Machine.exec, execResetLimitExpiry, hx]) o
    | executing e => exact plain s (by simp [Machine.exec, execResetLimitExpiry, hx]) o
  case localIngressByte b last => exact plain _ rfl (o.takeLocalByte b last)
  case localAdmissionRetry => exact plain _ rfl o.retryLocal
  case localEgressSelect =>
    by_cases hc : s.loc.egress = .idle
    · exact settled _ (if_pos hc) (State.Order.selectLocal _ o fun e k => by rw [hc]; exact nofun)
    · exact plain s (if_neg hc) o
  case localEgressByte => exact settled _ rfl o.takeOutByte

/-- Settles O60: the books with records in hand are kept by every operation, and each command begins and ends with none in
hand. -/
theorem stepKeepsFrameStoreSound : Obligations.StepKeepsFrameStoreSound := by
  intro s t hk hs h
  have o := s.storeSound_iff_order.mp hk
  refine t.storeSound_iff_order.mpr ?_
  rcases step_cases h with rfl | ⟨c, rest, e⟩
  · exact o
  · exact State.Order.exec (s := { s with pending := rest }) (o.aside rfl rfl rfl rfl rfl rfl rfl) hs c e

end Sys2Proof.Machine

end
